-- ==== Sys2Proof/Word.lean ====
section
/-! DEFINITION. The widths of the block's values (spec/00_scope.md R18, R19, R20). -/
namespace Sys2Proof

/-- One byte. -/
abbrev Byte := BitVec 8

/-- A host data word, 32 bits (R18); also the width of the millisecond clock and the timestamp. -/
abbrev Word := BitVec 32

/-- A duration in ticks, 16 bits (R18, R22): the wait counter and every timing-profile register. -/
abbrev Dur := BitVec 16

/-- A 40-bit frame (R17; spec/30_encoding.md R108). -/
abbrev Frame := BitVec 40

end Sys2Proof
end

