-- ==== Sys2Proof/Config.lean ====
section
/-! DEFINITION. What an implementation fixes: the parameters of spec/00_scope.md R8 to R16 as a record whose defaults are
this hardware's values, and the values the spec leaves open. -/
namespace Sys2Proof

/-- The parameters (R8 to R16), fixed for the life of the block (spec/10_state.md R30). -/
structure Params where
  /-- R8, clock cycles per microsecond tick. -/
  clksPerUs     : Nat
  /-- R9, ticks the start signal holds the line low. -/
  startLowUs    : Nat
  /-- R10, milliseconds between two conversion starts. -/
  minIntervalMs : Nat
  /-- R11, bound of each acknowledgement wait of a decode. -/
  ackTimeoutUs  : Nat
  /-- R12, bound of every wait of a calibration. -/
  calTimeoutUs  : Nat
  /-- R13, slack added to the calibrated lead-in. -/
  leadSlackUs   : Nat
  /-- R14, ticks from a bit's rising edge to its sample. -/
  settleUs      : Nat
  /-- R15, the calibrator's classification threshold. -/
  classThreshUs : Nat
  /-- R16, the most bit pulses a calibration samples. -/
  calMaxBits    : Nat
deriving DecidableEq, Repr

/-- The constraints of R8 to R16. -/
structure Params.Valid (p : Params) : Prop where
  clksPerUs        : 2 ≤ p.clksPerUs
  startLowUs_lo    : 1000 ≤ p.startLowUs
  startLowUs_hi    : p.startLowUs ≤ 10000
  minIntervalMs_lo : 1 ≤ p.minIntervalMs
  minIntervalMs_hi : p.minIntervalMs ≤ 2 ^ 31 - 1
  ackTimeoutUs_lo  : 1 ≤ p.ackTimeoutUs
  ackTimeoutUs_hi  : p.ackTimeoutUs ≤ 65535
  calTimeoutUs_lo  : p.classThreshUs < p.calTimeoutUs
  calTimeoutUs_hi  : p.calTimeoutUs ≤ 65535
  leadSlackUs_hi   : p.calTimeoutUs + p.leadSlackUs ≤ 65535
  settleUs_lo      : 1 ≤ p.settleUs
  settleUs_hi      : p.settleUs ≤ 65535
  classThreshUs_lo : 1 ≤ p.classThreshUs
  classThreshUs_hi : p.classThreshUs ≤ 65534
  calMaxBits_lo    : 2 ≤ p.calMaxBits
  calMaxBits_hi    : p.calMaxBits ≤ 63

/-- R8: CLKS_PER_US is OPEN, a platform parameter of at least 2; this is what it exceeds 2 by (log 7). -/
opaque Config.clksPerUsLessTwo : Nat

/-- R131: the level of the line at a tick, chosen by the environment under no law; read once `State.lineIn` is used up, at
the number of the tick (log 4). -/
opaque Config.lineLevel : Nat → Bool

/-- spec/45_host_interface.md R265: SENTINEL_TEMP is OPEN, a host parameter below `-3276.7`: how many binary32 values below
the highest of those it is, of the 976434381 there are down to minus infinity (log 14). -/
opaque Config.sentinelTempDepth : Fin 976434381

/-- The level of the pad at a tick at which the block drives it high and the sensor pulls it low: the spec gives none
(spec/70_reset_and_hazards.md R310; log 17). -/
opaque Config.contentionLevel : Nat → Bool

/-- The parameters of this hardware: the defaults of R9 to R16 (log 12). -/
def Config.params : Params where
  clksPerUs     := Config.clksPerUsLessTwo + 2
  startLowUs    := 2000
  minIntervalMs := 2000
  ackTimeoutUs  := 200
  calTimeoutUs  := 200
  leadSlackUs   := 30
  settleUs      := 40
  classThreshUs := 40
  calMaxBits    := 40

end Sys2Proof
end

