-- ==== Sys2Proof/Syntax.lean ====
section
/-! DEFINITION. The instructions of the block, one constructor per row of spec/opcode_table.json, and the two formats
they are written in (spec/30_encoding.md R100 to R103). -/
namespace Sys2Proof

/-- One host bus transaction, format BUS (R100): `we` is 1 for a write, `addr` a word address, `wdata` the data of a write. -/
structure BusReq where
  we    : Bool
  addr  : BitVec 4
  wdata : Word
deriving DecidableEq, Repr

/-- The two formats of the table: a command word, or a bus transaction (R100, R101). -/
inductive Format where
  | cmd
  | bus
deriving DecidableEq, Repr

/-- An instruction as it is written: a CMD word or a BUS transaction. -/
inductive Code where
  | cmd (w : Word)
  | bus (r : BusReq)
deriving DecidableEq, Repr

/-- The instructions. CMD rows have no operand but for the illegal word with reserved bits, which carries those bits and
its OP field; BUS writes carry `wdata`. -/
inductive Instr where
  -- format CMD: the data word of a write to CMD (R101, R102, R103)
  | nop
  | beginCmd
  | recover
  | read
  | measure
  | start
  | illegalOp6
  | illegalOp7
  | illegalRsv (rsv : BitVec 29) (op : BitVec 3)
  -- format BUS, reads (R100, spec/45_host_interface.md R240 to R253)
  | rdCmd
  | rdStatus
  | rdErr
  | rdData
  | rdCsum
  | rdRawLo
  | rdRawHi
  | rdProfAck
  | rdProfLead
  | rdProfBit
  | rdTstamp
  | rdNow
  | rdValue
  | rdRsvdD
  | rdRsvdE
  | rdRsvdF
  -- format BUS, writes (spec/45_host_interface.md R254 to R256)
  | wrCmd (v : Word)
  | wrStatus (v : Word)
  | wrErr (v : Word)
  | wrData (v : Word)
  | wrCsum (v : Word)
  | wrRawLo (v : Word)
  | wrRawHi (v : Word)
  | wrProfAck (v : Word)
  | wrProfLead (v : Word)
  | wrProfBit (v : Word)
  | wrTstamp (v : Word)
  | wrNow (v : Word)
  | wrValue (v : Word)
  | wrRsvdD (v : Word)
  | wrRsvdE (v : Word)
  | wrRsvdF (v : Word)
deriving DecidableEq, Repr

/-- Why a string of bytes is no instruction. The spec's own formats have no illegal value (R100, R103); these names are
about the byte layout the model gives them (log 1). -/
inductive DecodeError where
  /-- Not the number of bytes the format has. -/
  | badLength
  /-- The three bits above the 5-bit BUS pattern are not zero. -/
  | padBits
deriving DecidableEq, Repr

end Sys2Proof
end

