-- ==== Sys2Proof/Machine/State.lean ====
section
/-! DEFINITION. The state of the machine: every element of spec/10_state.md R31 to R51 in `Block`, and around it the host,
the line and the bus as plain data; the reset values (R54); the reasons a step can stop, of which the spec gives none. -/
namespace Sys2Proof.Machine

/-- The sequencer state (R31; codes in spec/30_encoding.md R107). -/
inductive Phase where
  | idle
  | startLow
  | wResp
  | wAckL
  | wAckH
  | wLead
  | settle
  | wHigh
deriving DecidableEq, Repr

/-- Which sequence runs (R32): `dec` is 0, `cal` is 1. -/
inductive Mode where
  | dec
  | cal
deriving DecidableEq, Repr

/-- The stored lifecycle state (R41); code 2 is never stored. -/
inductive LState where
  | poweredOn
  | uninitialized
  | ready
deriving DecidableEq, Repr

/-- The timing stages (spec/30_encoding.md R104). -/
inductive Stage where
  | ackLow
  | ackHigh
  | leadIn
  | bitHigh
  | interBit
deriving DecidableEq, Repr

/-- The result codes (spec/30_encoding.md R105), the block's exceptions and its success. -/
inductive ResultCode where
  | ok
  | powerOn
  | busy
  | checksumError
  | terr (g : Stage)
  | calErr (g : Stage)
deriving DecidableEq, Repr

/-- The timing profile (R46). -/
structure Profile where
  ack80Low    : Dur
  ack80High   : Dur
  bitLeadLow  : Dur
  bitHighZero : Dur
  bitHighOne  : Dur
deriving DecidableEq, Repr

/-- The calibration scratch (R47): `c_ackl`, `c_ackh`, `c_lead`, `c_h0`, `c_h1`, `seen0`, `seen1`. -/
structure Scratch where
  ackl  : Dur
  ackh  : Dur
  lead  : Dur
  h0    : Dur
  h1    : Dur
  seen0 : Bool
  seen1 : Bool
deriving DecidableEq, Repr

/-- The block's state, exactly the elements of R31 to R51 (R30). -/
structure Block where
  /-- R31 -/
  phase       : Phase
  /-- R32 -/
  mode        : Mode
  /-- R33 -/
  op          : BitVec 3
  /-- R34 -/
  cnt         : Dur
  /-- R35 -/
  bitcnt      : BitVec 6
  /-- R36, `pend_valid` -/
  pendValid   : Bool
  /-- R36, `pend_cmd` -/
  pendCmd     : BitVec 3
  /-- R37 -/
  done        : Bool
  /-- R38 -/
  err         : BitVec 8
  /-- R39 -/
  cached      : Bool
  /-- R40 -/
  ovr         : Bool
  /-- R40 -/
  ill         : Bool
  /-- R41 -/
  lstate      : LState
  /-- R42 -/
  recovering  : Bool
  /-- R43, `cal_done` -/
  calDone     : Bool
  /-- R44, `ts_valid` -/
  tsValid     : Bool
  /-- R44, `last_start_ms` -/
  lastStartMs : Word
  /-- R45, `pre_cnt`: a counter of no fixed width -/
  preCnt      : Nat
  /-- R45, `us_cnt` -/
  usCnt       : BitVec 10
  /-- R45, `now_ms` -/
  nowMs       : Word
  /-- R46 -/
  profile     : Profile
  /-- R47 -/
  scratch     : Scratch
  /-- R48 -/
  acc         : Frame
  /-- R49 -/
  frame       : Frame
  /-- R49, `frame_valid` -/
  frameValid  : Bool
  /-- R50, `cs_calc` -/
  csCalc      : BitVec 8
  /-- R51, `line_oe` -/
  lineOe      : Bool
  /-- R51, `line_out` -/
  lineOut     : Bool
deriving DecidableEq, Repr

/-- What the agents outside do next (spec/00_scope.md R7; spec/30_encoding.md R112, R113; spec/70_reset_and_hazards.md
R300). Plain data, the model's own (log 3). -/
inductive HostEvent where
  /-- The host makes one bus transaction, between two ticks. -/
  | access (r : BusReq)
  /-- `WAIT (more + 1)`: the host makes no access while `more + 1` ticks pass. -/
  | wait (more : Nat)
  /-- `POLL`: read STATUS until BUSY reads 0 (spec/45_host_interface.md R257), with `more + 1` ticks between two reads, which
  the host chooses (log 10). -/
  | poll (more : Nat)
  /-- `rst` is asserted and deasserted again (log 11). -/
  | rst
deriving DecidableEq, Repr

/-- A run of the line: `level` at `more + 1` consecutive ticks. -/
structure LineRun where
  level : Bool
  more  : Nat
deriving DecidableEq, Repr

/-- One register read the host has made: the address and the `rdata` the bus returned (spec/30_encoding.md R100). -/
structure BusRead where
  addr : BitVec 4
  data : Word
deriving DecidableEq, Repr

/-- The whole machine: the block, and the agents around it as plain data. -/
structure State where
  /-- The block (R30). -/
  blk    : Block
  /-- The model's own: what the host and the reset input do next; with nothing left, ticks pass (log 3). -/
  script : List HostEvent
  /-- The model's own: the levels of the line at the next ticks; after them the level is free (log 4). -/
  lineIn : List LineRun
  /-- The model's own: the number of ticks so far, which indexes the free levels (log 4). -/
  tickNo : Nat
  /-- The model's own: what the bus returned to the host, newest first (log 5). -/
  rdLog  : List BusRead
deriving DecidableEq, Repr

/-- Nothing faults: "No code stops the block" (spec/60_exceptions.md R270), so there is no constructor. Safe: a fault
nobody raises proves nothing false. -/
inductive Fault where
deriving DecidableEq, Repr

/-- Nothing the block does is refused by the model. -/
inductive Refusal where
  /-- Raised only by an arm of `exec` whose instruction has no meaning yet; there is none. Safe: the model stops. -/
  | notModelled (mnemonic : String)
deriving DecidableEq, Repr

/-- What comes next: a host access that runs an instruction, a tick that dispatches a command, any other tick, or a reset;
each with the state in which it happens. -/
inductive Turn where
  | access (i : Instr) (s : State)
  | dispatch (i : Instr) (s : State)
  | tick (s : State)
  | reset (s : State)
deriving DecidableEq, Repr

/-- The block after reset: the table of R54. -/
def Block.reset : Block where
  phase       := .idle
  mode        := .dec
  op          := 0
  cnt         := 0
  bitcnt      := 0
  pendValid   := false
  pendCmd     := 0
  done        := false
  err         := 0x00
  cached      := false
  ovr         := false
  ill         := false
  lstate      := .poweredOn
  recovering  := false
  calDone     := false
  tsValid     := false
  lastStartMs := 0
  preCnt      := 0
  usCnt       := 0
  nowMs       := 0
  profile     := { ack80Low := 0, ack80High := 0, bitLeadLow := 0, bitHighZero := 0, bitHighOne := 0 }
  scratch     := { ackl := 0, ackh := 0, lead := 0, h0 := 0, h1 := 0, seen0 := false, seen1 := false }
  acc         := 0
  frame       := 0
  frameValid  := false
  csCalc      := 0
  lineOe      := false
  lineOut     := false

/-- The machine after reset: the block as R54 says; nothing scripted, no level given, no tick passed, nothing read (log 3,
log 4, log 5). -/
def State.reset : State where
  blk    := Block.reset
  script := []
  lineIn := []
  tickNo := 0
  rdLog  := []

end Sys2Proof.Machine
end

