-- ==== Sys2Proof/Machine/Ops.lean ====
section
/-! DEFINITION. Shared operations on the block. An operation of the tick step takes `r`, the block as the step found it,
where it reads, and `w`, the block as written so far, where it writes: "every read in a step sees the state before the
step", and of two writes the last one wins (spec/00_scope.md R21). -/
namespace Sys2Proof.Machine

/-- Stage codes (spec/30_encoding.md R104). -/
def stageCode : Stage → BitVec 8
  | .ackLow => 1
  | .ackHigh => 2
  | .leadIn => 3
  | .bitHigh => 4
  | .interBit => 5

/-- Result codes (spec/30_encoding.md R105). -/
def resultCode : ResultCode → BitVec 8
  | .ok => 0x00
  | .powerOn => 0x01
  | .busy => 0x02
  | .checksumError => 0x03
  | .terr g => 0x10 + stageCode g
  | .calErr g => 0x20 + stageCode g

/-- `Complete(c)` (spec/44_lifecycle.md R212), the entry of every exception and the end of every success
(spec/60_exceptions.md R283). There is no return from it (R284): the host writes its next command. -/
def complete (c : ResultCode) (w : Block) : Block :=
  { w with err := resultCode c, done := true, phase := .idle }

/-- The writes every dispatch makes before its command's own (spec/44_lifecycle.md R211). -/
def dispatchWrites (k : BitVec 3) (w : Block) : Block :=
  { w with pendValid := false, op := k, done := false, cached := false }

/-- The time advance of a tick (spec/40_pulse_width.md R133), and the prescaler, which the tick's closing edge takes from
`CLKS_PER_US - 1` to 0 (R130). -/
def timeAdvance (r w : Block) : Block :=
  if r.usCnt = 999 then { w with preCnt := 0, usCnt := 0, nowMs := r.nowMs + 1 }
  else { w with preCnt := 0, usCnt := r.usCnt + 1 }

/-- The command word latch of a legal command (spec/44_lifecycle.md R210). -/
def latchCommand (k : BitVec 3) (b : Block) : Block := { b with pendValid := true, pendCmd := k }

/-- `ill <- 1` (spec/44_lifecycle.md R217). -/
def markIllegal (b : Block) : Block := { b with ill := true }

/-- `ovr <- 1` (spec/44_lifecycle.md R218). -/
def markOverrun (b : Block) : Block := { b with ovr := true }

/-- A bus read returns `data` to the host (spec/30_encoding.md R100) and changes nothing in the block (spec/20_memory.md
R87). -/
def busReturn (addr : BitVec 4) (data : Word) (s : State) : State :=
  { s with rdLog := { addr := addr, data := data } :: s.rdLog }

/-- An update of the block alone. -/
def onBlock (f : Block → Block) (s : State) : State := { s with blk := f s.blk }

end Sys2Proof.Machine
end

