-- ==== Sys2Proof/Machine/Flags.lean ====
section
/-! DEFINITION. Derived signals and comparators: BUSY, DSTATE, INTERVAL_BUSY, the classification of a pulse, the checksum
validator, the drive of the line. -/
namespace Sys2Proof.Machine

/-- `BUSY` (spec/10_state.md R52). -/
def busy (b : Block) : Bool := b.pendValid || b.phase != .idle

/-- The code of a stored lifecycle state (spec/10_state.md R41; spec/30_encoding.md R106). -/
def lstateCode : LState → BitVec 3
  | .poweredOn => 0
  | .uninitialized => 1
  | .ready => 3

/-- `DSTATE` (spec/10_state.md R53). -/
def dstate (b : Block) : BitVec 3 :=
  if b.phase ≠ .idle then
    match b.mode with
    | .cal => 2
    | .dec => 4
  else lstateCode b.lstate

/-- `INTERVAL_BUSY` (spec/41_initiator.md R150): the elapsed time is formed modulo `2^32`. -/
def intervalBusy (p : Params) (b : Block) : Bool :=
  b.tsValid && decide ((b.nowMs - b.lastStartMs).toNat < p.minIntervalMs)

/-- The power-on assumption, `lstate = POWERED_ON` (spec/44_lifecycle.md R213). -/
def poweredOn (b : Block) : Bool := b.lstate == .poweredOn

/-- Duration classification (spec/40_pulse_width.md R140): class 1 iff longer than the threshold. -/
def classOne (p : Params) (d : Dur) : Bool := decide (p.classThreshUs < d.toNat)

/-- The sum of the four data bytes, modulo 256 (spec/43_decoder.md R185, R186). -/
def checksum (x : Frame) : BitVec 8 :=
  x.extractLsb' 32 8 + x.extractLsb' 24 8 + x.extractLsb' 16 8 + x.extractLsb' 8 8

/-- The checksum validator (spec/43_decoder.md R186). -/
def checksumOk (x : Frame) : Bool := checksum x == x.extractLsb' 0 8

/-- What the block drives onto the line: nothing, or a level (spec/10_state.md R51; spec/40_pulse_width.md R132). -/
def lineDrive (b : Block) : Option Bool := if b.lineOe then some b.lineOut else none

/-- The level of the pad at a tick (spec/40_pulse_width.md R132): what the block drives, or, when it drives nothing, the
pull-up's high unless the sensor pulls the line low. DESIGN CHOICE: where the block drives high and the sensor pulls low
the spec gives no level (spec/70_reset_and_hazards.md R310), and it is free (log 17). The sequencer never reads the pad: its
samples are a free input (R131). -/
def padLevel (b : Block) (sensorPullsLow : Bool) (tick : Nat) : Bool :=
  match lineDrive b with
  | none => !sensorPullsLow
  | some false => false
  | some true => if sensorPullsLow then Config.contentionLevel tick else true

end Sys2Proof.Machine
end

