-- ==== Sys2Proof/Machine/Operands.lean ====
section
/-! DEFINITION. The host registers as views of the block (spec/10_state.md R56 to R69; spec/45_host_interface.md R240 to
R253) and the fields of a frame (spec/43_decoder.md R187 to R189). -/
namespace Sys2Proof.Machine

/-- Phase codes (spec/30_encoding.md R107). -/
def phaseCode : Phase → BitVec 3
  | .idle => 0
  | .startLow => 1
  | .wResp => 2
  | .wAckL => 3
  | .wAckH => 4
  | .wLead => 5
  | .settle => 6
  | .wHigh => 7

/-- The mode bit (spec/10_state.md R32). -/
def modeBit : Mode → Bool
  | .dec => false
  | .cal => true

/-- A flag as one bit of a register. -/
def bit (b : Bool) : BitVec 1 := BitVec.ofBool b

/-- `hum_field`, and so `HUM_TENTHS` (spec/43_decoder.md R187, R188). -/
def humField (x : Frame) : BitVec 16 := x.extractLsb' 24 16

/-- `temp_field` (spec/43_decoder.md R187). -/
def tempField (x : Frame) : BitVec 16 := x.extractLsb' 8 16

/-- `cs_field` (spec/43_decoder.md R187). -/
def csField (x : Frame) : BitVec 8 := x.extractLsb' 0 8

/-- `TEMP_TENTHS` (spec/43_decoder.md R189): sign and magnitude to two's complement. -/
def tempTenths (field : BitVec 16) : BitVec 16 :=
  let mag : BitVec 16 := (field.extractLsb' 0 15).setWidth 16
  if field.getLsbD 15 then 0 - mag else mag

/-- CMD reads 0 (R56, R240). -/
def regCmd : Word := 0

/-- STATUS, the fields in the order of R241, the high bits first (R57). -/
def regStatus (p : Params) (b : Block) : Word :=
  0#4 ++ b.bitcnt ++ phaseCode b.phase ++ b.op ++ bit b.cached ++ bit (modeBit b.mode) ++ bit b.ill ++ bit b.ovr
    ++ bit b.lineOut ++ bit b.lineOe ++ bit b.tsValid ++ bit (intervalBusy p b) ++ bit b.frameValid
    ++ bit b.calDone ++ bit b.recovering ++ dstate b ++ bit b.done ++ bit (busy b)

/-- ERR (R58, R242). -/
def regErr (b : Block) : Word := b.err.setWidth 32

/-- DATA (R59, R243). -/
def regData (b : Block) : Word := humField b.frame ++ tempField b.frame

/-- CSUM (R60, R244). -/
def regCsum (b : Block) : Word := (b.csCalc ++ csField b.frame).setWidth 32

/-- RAW_LO (R61, R245). -/
def regRawLo (b : Block) : Word := b.acc.extractLsb' 0 32

/-- RAW_HI (R62, R246). -/
def regRawHi (b : Block) : Word := (b.acc.extractLsb' 32 8).setWidth 32

/-- PROF_ACK (R63, R247). -/
def regProfAck (b : Block) : Word := b.profile.ack80High ++ b.profile.ack80Low

/-- PROF_LEAD (R64, R248). -/
def regProfLead (b : Block) : Word := b.profile.bitLeadLow.setWidth 32

/-- PROF_BIT (R65, R249). -/
def regProfBit (b : Block) : Word := b.profile.bitHighOne ++ b.profile.bitHighZero

/-- TSTAMP (R66, R250). -/
def regTstamp (b : Block) : Word := b.lastStartMs

/-- NOW (R67, R251). -/
def regNow (b : Block) : Word := b.nowMs

/-- VALUE (R68, R252). -/
def regValue (b : Block) : Word := tempTenths (tempField b.frame) ++ humField b.frame

/-- The reserved addresses read 0 (R69, R253). -/
def regReserved : Word := 0

/-- `RegRead(a)` (spec/20_memory.md R80, R88): the register at a word address. -/
def regRead (p : Params) (a : BitVec 4) (b : Block) : Word :=
  match a.toNat with
  | 0 => regCmd
  | 1 => regStatus p b
  | 2 => regErr b
  | 3 => regData b
  | 4 => regCsum b
  | 5 => regRawLo b
  | 6 => regRawHi b
  | 7 => regProfAck b
  | 8 => regProfLead b
  | 9 => regProfBit b
  | 10 => regTstamp b
  | 11 => regNow b
  | 12 => regValue b
  | _ => regReserved

end Sys2Proof.Machine
end

