-- ==== Sys2Proof/Machine/HostReads.lean ====
section
/-! DEFINITION. The host's register reads (spec/45_host_interface.md R240 to R253): the bus returns the register's value
and nothing in the block changes (spec/20_memory.md R87). -/
namespace Sys2Proof.Machine

/-- `RD CMD` (R240). -/
def execRdCmd (s : State) : Host.Outcome State Fault Refusal := .next (busReturn 0 regCmd s)

/-- `RD STATUS` (R241). -/
def execRdStatus (s : State) : Host.Outcome State Fault Refusal := .next (busReturn 1 (regStatus Config.params s.blk) s)

/-- `RD ERR` (R242). -/
def execRdErr (s : State) : Host.Outcome State Fault Refusal := .next (busReturn 2 (regErr s.blk) s)

/-- `RD DATA` (R243). -/
def execRdData (s : State) : Host.Outcome State Fault Refusal := .next (busReturn 3 (regData s.blk) s)

/-- `RD CSUM` (R244). -/
def execRdCsum (s : State) : Host.Outcome State Fault Refusal := .next (busReturn 4 (regCsum s.blk) s)

/-- `RD RAW_LO` (R245). -/
def execRdRawLo (s : State) : Host.Outcome State Fault Refusal := .next (busReturn 5 (regRawLo s.blk) s)

/-- `RD RAW_HI` (R246). -/
def execRdRawHi (s : State) : Host.Outcome State Fault Refusal := .next (busReturn 6 (regRawHi s.blk) s)

/-- `RD PROF_ACK` (R247). -/
def execRdProfAck (s : State) : Host.Outcome State Fault Refusal := .next (busReturn 7 (regProfAck s.blk) s)

/-- `RD PROF_LEAD` (R248). -/
def execRdProfLead (s : State) : Host.Outcome State Fault Refusal := .next (busReturn 8 (regProfLead s.blk) s)

/-- `RD PROF_BIT` (R249). -/
def execRdProfBit (s : State) : Host.Outcome State Fault Refusal := .next (busReturn 9 (regProfBit s.blk) s)

/-- `RD TSTAMP` (R250). -/
def execRdTstamp (s : State) : Host.Outcome State Fault Refusal := .next (busReturn 10 (regTstamp s.blk) s)

/-- `RD NOW` (R251). -/
def execRdNow (s : State) : Host.Outcome State Fault Refusal := .next (busReturn 11 (regNow s.blk) s)

/-- `RD VALUE` (R252). -/
def execRdValue (s : State) : Host.Outcome State Fault Refusal := .next (busReturn 12 (regValue s.blk) s)

/-- `RD 0xD` (R253). -/
def execRdRsvdD (s : State) : Host.Outcome State Fault Refusal := .next (busReturn 13 regReserved s)

/-- `RD 0xE` (R253). -/
def execRdRsvdE (s : State) : Host.Outcome State Fault Refusal := .next (busReturn 14 regReserved s)

/-- `RD 0xF` (R253). -/
def execRdRsvdF (s : State) : Host.Outcome State Fault Refusal := .next (busReturn 15 regReserved s)

end Sys2Proof.Machine
end

