-- ==== Sys2Proof/Machine/PulseWidth.lean ====
section
/-! DEFINITION. The pulse-width detector and its comparators (spec/40_pulse_width.md R136 to R139), and the line's samples
(R131). -/
namespace Sys2Proof.Machine

/-- How one tick of a bounded wait goes (R136). -/
inductive WaitOutcome where
  /-- The line left the awaited level: the wait ends with the measured duration. -/
  | ended (d : Dur)
  /-- The bound is reached with the line still at the level. -/
  | timedOut
  /-- The wait goes on with this count. -/
  | holding (c : Dur)
deriving DecidableEq, Repr

/-- `WaitStep(s, L, B, g)` (R136): a level change beats the bound (spec/60_exceptions.md R281). -/
def waitStep (lvl L : Bool) (B : Nat) (cnt : Dur) : WaitOutcome :=
  let c := cnt + 1
  if lvl ≠ L then .ended c
  else if B ≤ c.toNat then .timedOut
  else .holding c

/-- The bound `B` of a wait phase by mode (R138); the sum for a decode's lead-in is formed without wrap. The phases that
are no wait have none. -/
def waitBound (p : Params) (r : Block) : Nat :=
  match r.mode with
  | .cal => p.calTimeoutUs
  | .dec =>
    match r.phase with
    | .wLead => r.profile.bitLeadLow.toNat + p.leadSlackUs
    | .wHigh => r.profile.bitHighOne.toNat
    | _ => p.ackTimeoutUs

/-- The stage `G` a wait reports on timeout (R139). -/
def waitStage (r : Block) : Stage :=
  match r.phase with
  | .wAckH => .ackHigh
  | .wLead => if r.bitcnt = 0 then .leadIn else .interBit
  | .wHigh => .bitHigh
  | _ => .ackLow

/-- The level a wait phase holds (R135). -/
def waitLevel : Phase → Bool
  | .wAckL => false
  | .wLead => false
  | _ => true

/-- The level of the line at the next tick (R131): the given one, or a free one. -/
def sampleLine (s : State) : Bool :=
  match s.lineIn with
  | run :: _ => run.level
  | [] => Config.lineLevel s.tickNo

/-- The line's levels after one tick. -/
def lineAfter : List LineRun → List LineRun
  | [] => []
  | run :: rest =>
    match run.more with
    | 0 => rest
    | n + 1 => { run with more := n } :: rest

end Sys2Proof.Machine
end

