-- ==== Sys2Proof/Machine/Initiator.lean ====
section
/-! DEFINITION. The conversion initiator, the acknowledgement handshake and the START command (spec/41_initiator.md). -/
namespace Sys2Proof.Machine

/-- `CalEntry()` (spec/42_calibrator.md R160). -/
def calEntry (w : Block) : Block :=
  { w with scratch := { ackl := 0, ackh := 0, lead := 0, h0 := 0, h1 := 0, seen0 := false, seen1 := false } }

/-- `StartSeq(m)` (R151). -/
def startSeq (m : Mode) (w : Block) : Block :=
  let w' := { w with mode := m, phase := .startLow, cnt := 0, bitcnt := 0, lineOe := true, lineOut := false }
  match m with
  | .cal => calEntry w'
  | .dec => w'

/-- `StartLowStep()` (R152). -/
def startLowStep (p : Params) (r w : Block) : Block :=
  let c := r.cnt + 1
  if c.toNat = p.startLowUs then
    let w' := { w with lineOe := false, lastStartMs := r.nowMs, tsValid := true }
    if r.op = 5 then complete .ok w'
    else { w' with phase := .wResp, cnt := 0 }
  else { w with cnt := c }

/-- `RespEnd(d)` (R153): the duration is not recorded. -/
def respEnd (w : Block) : Block := { w with phase := .wAckL, cnt := 0 }

/-- `AckLowEnd(d)` (R154). -/
def ackLowEnd (r : Block) (d : Dur) (w : Block) : Block :=
  let w' := match r.mode with
    | .cal => { w with scratch := { w.scratch with ackl := d } }
    | .dec => w
  { w' with phase := .wAckH, cnt := 0 }

/-- `AckHighEnd(d)` (R155). -/
def ackHighEnd (r : Block) (d : Dur) (w : Block) : Block :=
  let w' := match r.mode with
    | .cal => { w with scratch := { w.scratch with ackh := d } }
    | .dec => w
  { w' with phase := .wLead, cnt := 0 }

/-- `StartEntry()` (R156). -/
def startEntry (p : Params) (r w : Block) : Block :=
  if intervalBusy p r then complete .busy w else startSeq .dec w

/-- The dispatch tick of START (R156; spec/44_lifecycle.md R211). -/
def startDispatch (p : Params) (r : Block) : Block := startEntry p r (dispatchWrites 5 r)

/-- START at its dispatch tick (R156). -/
def execStart (s : State) : Host.Outcome State Fault Refusal := .next (onBlock (startDispatch Config.params) s)

end Sys2Proof.Machine
end

