-- ==== Sys2Proof/Machine/Lifecycle.lean ====
section
/-! DEFINITION. The lifecycle and recovery controller: BEGIN, RECOVER, NOP, the illegal words, and the admission of a
command word (spec/44_lifecycle.md). -/
namespace Sys2Proof.Machine

/-- `BeginEntry(pw)` (R213). -/
def beginEntry (p : Params) (pw : Bool) (r w : Block) : Block :=
  if pw then
    complete .powerOn { w with lstate := .uninitialized, lastStartMs := r.nowMs, tsValid := true }
  else if intervalBusy p r then complete .busy w
  else startSeq .cal w

/-- The dispatch tick of BEGIN (R214, R211). -/
def beginDispatch (p : Params) (r : Block) : Block := beginEntry p (poweredOn r) r (dispatchWrites 1 r)

/-- `RecoverEntry()` (R215). -/
def recoverEntry (p : Params) (r w : Block) : Block :=
  if r.recovering = false then
    beginEntry p true r { w with recovering := true, frameValid := false }
  else beginEntry p (poweredOn r) r w

/-- The dispatch tick of RECOVER (R215, R211). -/
def recoverDispatch (p : Params) (r : Block) : Block := recoverEntry p r (dispatchWrites 2 r)

/-- A write of `v` to CMD, the checks in the order of R210. -/
def cmdWrite (v : Word) (b : Block) : Block :=
  if v = 0x00000000 then b
  else if v.extractLsb' 3 29 ≠ 0 ∨ v.extractLsb' 0 3 = 6 ∨ v.extractLsb' 0 3 = 7 then markIllegal b
  else if busy b then markOverrun b
  else latchCommand (v.extractLsb' 0 3) b

/-- BEGIN at its dispatch tick (R214). -/
def execBegin (s : State) : Host.Outcome State Fault Refusal := .next (onBlock (beginDispatch Config.params) s)

/-- RECOVER at its dispatch tick (R215). -/
def execRecover (s : State) : Host.Outcome State Fault Refusal := .next (onBlock (recoverDispatch Config.params) s)

/-- NOP (R216): "ignored entirely". -/
def execNop (s : State) : Host.Outcome State Fault Refusal := .next s

/-- The illegal word with OP = 6 (R217). -/
def execIllegalOp6 (s : State) : Host.Outcome State Fault Refusal := .next (onBlock markIllegal s)

/-- The illegal word with OP = 7 (R217). -/
def execIllegalOp7 (s : State) : Host.Outcome State Fault Refusal := .next (onBlock markIllegal s)

/-- The illegal words with reserved bits (R217), whatever the bits are. -/
def execIllegalRsv (_rsv : BitVec 29) (_op : BitVec 3) (s : State) : Host.Outcome State Fault Refusal :=
  .next (onBlock markIllegal s)

end Sys2Proof.Machine
end

