-- ==== Sys2Proof/Machine/HostWrites.lean ====
section
/-! DEFINITION. The host's register writes (spec/45_host_interface.md R254 to R256). -/
namespace Sys2Proof.Machine

/-- The write-1-to-clear bits of STATUS (R255): 12 is OVR, 13 is ILL. -/
def statusWrite (v : Word) (b : Block) : Block :=
  { b with ovr := b.ovr && !v.getLsbD 12, ill := b.ill && !v.getLsbD 13 }

/-- A write that has no effect on any state (R256). -/
def ignoredWrite (_v : Word) (s : State) : Host.Outcome State Fault Refusal := .next s

/-- `WR CMD, v` (R254). -/
def execWrCmd (v : Word) (s : State) : Host.Outcome State Fault Refusal := .next (onBlock (cmdWrite v) s)

/-- `WR STATUS, v` (R255). -/
def execWrStatus (v : Word) (s : State) : Host.Outcome State Fault Refusal := .next (onBlock (statusWrite v) s)

/-- `WR ERR, v` (R256). -/
def execWrErr (v : Word) (s : State) : Host.Outcome State Fault Refusal := ignoredWrite v s

/-- `WR DATA, v` (R256). -/
def execWrData (v : Word) (s : State) : Host.Outcome State Fault Refusal := ignoredWrite v s

/-- `WR CSUM, v` (R256). -/
def execWrCsum (v : Word) (s : State) : Host.Outcome State Fault Refusal := ignoredWrite v s

/-- `WR RAW_LO, v` (R256). -/
def execWrRawLo (v : Word) (s : State) : Host.Outcome State Fault Refusal := ignoredWrite v s

/-- `WR RAW_HI, v` (R256). -/
def execWrRawHi (v : Word) (s : State) : Host.Outcome State Fault Refusal := ignoredWrite v s

/-- `WR PROF_ACK, v` (R256). -/
def execWrProfAck (v : Word) (s : State) : Host.Outcome State Fault Refusal := ignoredWrite v s

/-- `WR PROF_LEAD, v` (R256). -/
def execWrProfLead (v : Word) (s : State) : Host.Outcome State Fault Refusal := ignoredWrite v s

/-- `WR PROF_BIT, v` (R256). -/
def execWrProfBit (v : Word) (s : State) : Host.Outcome State Fault Refusal := ignoredWrite v s

/-- `WR TSTAMP, v` (R256). -/
def execWrTstamp (v : Word) (s : State) : Host.Outcome State Fault Refusal := ignoredWrite v s

/-- `WR NOW, v` (R256). -/
def execWrNow (v : Word) (s : State) : Host.Outcome State Fault Refusal := ignoredWrite v s

/-- `WR VALUE, v` (R256). -/
def execWrValue (v : Word) (s : State) : Host.Outcome State Fault Refusal := ignoredWrite v s

/-- `WR 0xD, v` (R256). -/
def execWrRsvdD (v : Word) (s : State) : Host.Outcome State Fault Refusal := ignoredWrite v s

/-- `WR 0xE, v` (R256). -/
def execWrRsvdE (v : Word) (s : State) : Host.Outcome State Fault Refusal := ignoredWrite v s

/-- `WR 0xF, v` (R256). -/
def execWrRsvdF (v : Word) (s : State) : Host.Outcome State Fault Refusal := ignoredWrite v s

end Sys2Proof.Machine
end

