-- ==== Sys2Proof/Machine/FrameDecoder.lean ====
section
/-! DEFINITION. The frame decoder, the accumulator, the end of a decode and the READ command (spec/43_decoder.md). -/
namespace Sys2Proof.Machine

/-- `DecEntry()` (R180). -/
def decEntry (w : Block) : Block := { w with acc := 0 }

/-- `ReadStart()` (R191). -/
def readStart (p : Params) (r w : Block) : Block :=
  if intervalBusy p r then
    if r.frameValid then complete .ok { w with cached := true }
    else complete .busy w
  else decEntry (startSeq .dec w)

/-- `LeadEnd(d)` with `mode = 0` (R181): the duration is not recorded. -/
def decLeadEnd (w : Block) : Block := { w with phase := .settle, cnt := 0 }

/-- The frame accumulator (R183): the held bits move up one place and the sample enters at bit 0. -/
def shiftIn (acc : Frame) (lvl : Bool) : Frame := acc.extractLsb' 0 39 ++ bit lvl

/-- `SettleStep(s)` (R182). -/
def settleStep (p : Params) (lvl : Bool) (r w : Block) : Block :=
  let c := r.cnt + 1
  if c.toNat = p.settleUs then
    { w with acc := shiftIn r.acc lvl, bitcnt := r.bitcnt + 1, phase := .wHigh, cnt := 0 }
  else { w with cnt := c }

/-- `DecodeDone()` (R185). -/
def decodeDone (r w : Block) : Block :=
  let w' := { w with lineOe := true, lineOut := true, csCalc := checksum r.acc }
  if checksumOk r.acc then complete .ok { w' with frame := r.acc, frameValid := true }
  else complete .checksumError w'

/-- `HighEnd(d)` with `mode = 0` (R184). -/
def decHighEnd (r w : Block) : Block :=
  if r.bitcnt = 40 then decodeDone r w else { w with phase := .wLead, cnt := 0 }

/-- `DecTimeout(g)` (R190). -/
def decTimeout (g : Stage) (w : Block) : Block := complete (.terr g) w

/-- `ReadEntry()` (R192). -/
def readEntry (p : Params) (r w : Block) : Block :=
  if r.calDone = false then beginEntry p (poweredOn r) r w else readStart p r w

/-- The dispatch tick of READ (R192; spec/44_lifecycle.md R211). -/
def readDispatch (p : Params) (r : Block) : Block := readEntry p r (dispatchWrites 3 r)

/-- READ at its dispatch tick (R192). -/
def execRead (s : State) : Host.Outcome State Fault Refusal := .next (onBlock (readDispatch Config.params) s)

end Sys2Proof.Machine
end

