-- ==== Sys2Proof/Machine/Calibrator.lean ====
section
/-! DEFINITION. The timing calibrator and the MEASURE command (spec/42_calibrator.md). -/
namespace Sys2Proof.Machine

/-- `LeadEnd(d)` with `mode = 1` (R161): the first bit's lead-in is the one recorded. -/
def calLeadEnd (r : Block) (d : Dur) (w : Block) : Block :=
  let w' := if r.bitcnt = 0 then { w with scratch := { w.scratch with lead := d } } else w
  { w' with phase := .wHigh, cnt := 0 }

/-- `CalSuccess(h0, h1)` (R163): the profile is written whole; a READ goes on to `ReadStart` in the same tick. -/
def calSuccess (p : Params) (h0 h1 : Dur) (r w : Block) : Block :=
  let w1 := { w with
    profile := { ack80Low := r.scratch.ackl, ack80High := r.scratch.ackh, bitLeadLow := r.scratch.lead,
                 bitHighZero := h0, bitHighOne := h1 }
    calDone := true }
  let w2 := if r.op = 1 ∨ r.op = 2 ∨ r.op = 3 then { w1 with lstate := .ready, recovering := false } else w1
  let w3 := if r.op = 1 ∨ r.op = 2 ∨ r.op = 4 then complete .ok w2 else w2
  if r.op = 3 then readStart p r w3 else w3

/-- `CalFail(g)` (R164). -/
def calFail (g : Stage) (r w : Block) : Block :=
  let w1 := if r.op = 1 ∨ r.op = 2 ∨ r.op = 3 then { w with lstate := .uninitialized } else w
  let w2 := if r.op = 2 then { w1 with recovering := false } else w1
  complete (.calErr g) w2

/-- The scratch after a bit's high phase of length `d` (R162): the first duration of each class is kept. -/
def scratchAfterHigh (p : Params) (d : Dur) (c : Scratch) : Scratch :=
  let cls := classOne p d
  { c with
    h0 := if cls = false ∧ c.seen0 = false then d else c.h0
    h1 := if cls = true ∧ c.seen1 = false then d else c.h1
    seen0 := c.seen0 || !cls
    seen1 := c.seen1 || cls }

/-- `HighEnd(d)` with `mode = 1` (R162). -/
def calHighEnd (p : Params) (r : Block) (d : Dur) (w : Block) : Block :=
  let nb := r.bitcnt + 1
  let sc := scratchAfterHigh p d r.scratch
  let w' := { w with scratch := sc, bitcnt := nb }
  if sc.seen0 && sc.seen1 then calSuccess p sc.h0 sc.h1 r w'
  else if nb.toNat = p.calMaxBits then calFail .bitHigh r w'
  else { w' with phase := .wLead, cnt := 0 }

/-- `MeasureEntry()` (R165). -/
def measureEntry (p : Params) (r w : Block) : Block :=
  if intervalBusy p r then complete .busy w else startSeq .cal w

/-- The dispatch tick of MEASURE (R165; spec/44_lifecycle.md R211). -/
def measureDispatch (p : Params) (r : Block) : Block := measureEntry p r (dispatchWrites 4 r)

/-- MEASURE at its dispatch tick (R165). -/
def execMeasure (s : State) : Host.Outcome State Fault Refusal := .next (onBlock (measureDispatch Config.params) s)

end Sys2Proof.Machine
end

