-- ==== Sys2Proof/Machine/Sequencer.lean ====
section
/-! DEFINITION. The sequencer step and the tick (spec/40_pulse_width.md R130, R135, R137). -/
namespace Sys2Proof.Machine

/-- `raise Timeout(g)` (R137). -/
def timeout (g : Stage) (r w : Block) : Block :=
  match r.mode with
  | .cal => calFail g r w
  | .dec => decTimeout g w

/-- `LeadEnd(d)` by mode (R135). -/
def leadEnd (r : Block) (d : Dur) (w : Block) : Block :=
  match r.mode with
  | .cal => calLeadEnd r d w
  | .dec => decLeadEnd w

/-- `HighEnd(d)` by mode (R135). -/
def highEnd (p : Params) (r : Block) (d : Dur) (w : Block) : Block :=
  match r.mode with
  | .cal => calHighEnd p r d w
  | .dec => decHighEnd r w

/-- One tick of a wait phase (R135, R136, R137): `fin` is what the phase does at its end. -/
def waitTick (p : Params) (lvl : Bool) (r : Block) (fin : Dur → Block → Block) : Block :=
  match waitStep lvl (waitLevel r.phase) (waitBound p r) r.cnt with
  | .ended d => fin d r
  | .timedOut => timeout (waitStage r) r r
  | .holding c => { r with cnt := c }

/-- `Dispatch(k)` (spec/44_lifecycle.md R211): a code that no command has gets the dispatch's own writes and no more (log 8). -/
def dispatch (p : Params) (k : BitVec 3) (r : Block) : Block :=
  match k.toNat with
  | 1 => beginDispatch p r
  | 2 => recoverDispatch p r
  | 3 => readDispatch p r
  | 4 => measureDispatch p r
  | 5 => startDispatch p r
  | _ => dispatchWrites k r

/-- The sequencer step of a tick (R135): exactly one arm runs. -/
def seqStep (p : Params) (lvl : Bool) (r : Block) : Block :=
  match r.phase with
  | .idle => if r.pendValid then dispatch p r.pendCmd r else r
  | .startLow => startLowStep p r r
  | .wResp => waitTick p lvl r fun _ w => respEnd w
  | .wAckL => waitTick p lvl r fun d w => ackLowEnd r d w
  | .wAckH => waitTick p lvl r fun d w => ackHighEnd r d w
  | .wLead => waitTick p lvl r fun d w => leadEnd r d w
  | .settle => settleStep p lvl r r
  | .wHigh => waitTick p lvl r fun d w => highEnd p r d w

/-- A tick (R130): the sequencer step and the time advance as one step whose reads see the state before it. -/
def tickBlock (p : Params) (lvl : Bool) (r : Block) : Block := timeAdvance r (seqStep p lvl r)

/-- Ticks on end, with the level of the line at each. -/
def tickRun (p : Params) : List Bool → Block → Block
  | [], b => b
  | lvl :: rest, b => tickRun p rest (tickBlock p lvl b)

/-- One edge of `clk` (R130): the prescaler counts modulo CLKS_PER_US and the closing edge of a tick cycle is a tick. The
machine's step is a whole tick (spec/00_scope.md R6); this is what it sums up (log 6). -/
def clkEdge (p : Params) (lvl : Bool) (b : Block) : Block :=
  if b.preCnt = p.clksPerUs - 1 then tickBlock p lvl b
  else { b with preCnt := (b.preCnt + 1) % p.clksPerUs }

/-- `n` edges of `clk` with the line at one level. -/
def clkEdges (p : Params) (lvl : Bool) : Nat → Block → Block
  | 0, b => b
  | n + 1, b => clkEdges p lvl n (clkEdge p lvl b)

end Sys2Proof.Machine
end

