-- ==== Sys2Proof/Machine/Dispatch.lean ====
section
/-! DEFINITION. One arm per instruction, each a call of its meaning. -/
namespace Sys2Proof.Machine

def exec (i : Instr) (s : State) : Host.Outcome State Fault Refusal :=
  match i with
  -- format CMD
  | .nop => Sys2Proof.Machine.execNop s
  | .beginCmd => Sys2Proof.Machine.execBegin s
  | .recover => Sys2Proof.Machine.execRecover s
  | .read => Sys2Proof.Machine.execRead s
  | .measure => Sys2Proof.Machine.execMeasure s
  | .start => Sys2Proof.Machine.execStart s
  | .illegalOp6 => Sys2Proof.Machine.execIllegalOp6 s
  | .illegalOp7 => Sys2Proof.Machine.execIllegalOp7 s
  | .illegalRsv rsv op => Sys2Proof.Machine.execIllegalRsv rsv op s
  -- format BUS, reads
  | .rdCmd => Sys2Proof.Machine.execRdCmd s
  | .rdStatus => Sys2Proof.Machine.execRdStatus s
  | .rdErr => Sys2Proof.Machine.execRdErr s
  | .rdData => Sys2Proof.Machine.execRdData s
  | .rdCsum => Sys2Proof.Machine.execRdCsum s
  | .rdRawLo => Sys2Proof.Machine.execRdRawLo s
  | .rdRawHi => Sys2Proof.Machine.execRdRawHi s
  | .rdProfAck => Sys2Proof.Machine.execRdProfAck s
  | .rdProfLead => Sys2Proof.Machine.execRdProfLead s
  | .rdProfBit => Sys2Proof.Machine.execRdProfBit s
  | .rdTstamp => Sys2Proof.Machine.execRdTstamp s
  | .rdNow => Sys2Proof.Machine.execRdNow s
  | .rdValue => Sys2Proof.Machine.execRdValue s
  | .rdRsvdD => Sys2Proof.Machine.execRdRsvdD s
  | .rdRsvdE => Sys2Proof.Machine.execRdRsvdE s
  | .rdRsvdF => Sys2Proof.Machine.execRdRsvdF s
  -- format BUS, writes
  | .wrCmd v => Sys2Proof.Machine.execWrCmd v s
  | .wrStatus v => Sys2Proof.Machine.execWrStatus v s
  | .wrErr v => Sys2Proof.Machine.execWrErr v s
  | .wrData v => Sys2Proof.Machine.execWrData v s
  | .wrCsum v => Sys2Proof.Machine.execWrCsum v s
  | .wrRawLo v => Sys2Proof.Machine.execWrRawLo v s
  | .wrRawHi v => Sys2Proof.Machine.execWrRawHi v s
  | .wrProfAck v => Sys2Proof.Machine.execWrProfAck v s
  | .wrProfLead v => Sys2Proof.Machine.execWrProfLead v s
  | .wrProfBit v => Sys2Proof.Machine.execWrProfBit v s
  | .wrTstamp v => Sys2Proof.Machine.execWrTstamp v s
  | .wrNow v => Sys2Proof.Machine.execWrNow v s
  | .wrValue v => Sys2Proof.Machine.execWrValue v s
  | .wrRsvdD v => Sys2Proof.Machine.execWrRsvdD v s
  | .wrRsvdE v => Sys2Proof.Machine.execWrRsvdE v s
  | .wrRsvdF v => Sys2Proof.Machine.execWrRsvdF v s

end Sys2Proof.Machine
end

