-- ==== Sys2Proof/WellFormed.lean ====
section
/-! DEFINITION. Which terms of `Instr` the encodings can hold (spec/30_encoding.md R103). -/
namespace Sys2Proof

/-- `illegalRsv` stands for a word whose reserved field is not zero; every other operand may hold any value (R100, R103). -/
def Instr.wellFormed : Instr → Bool
  | .illegalRsv rsv _ => rsv != 0
  | _ => true

end Sys2Proof
end

