-- ==== Sys2Proof/Decode.lean ====
section
/-! DEFINITION. Decoding and encoding of command words and bus transactions (spec/30_encoding.md R100 to R103). -/
namespace Sys2Proof

/-- `n` bytes of a number, the least significant first. -/
def bytesOf : Nat → Nat → List Byte
  | 0, _ => []
  | n + 1, w => BitVec.ofNat 8 w :: bytesOf n (w / 256)

/-- A command word (R101, R102, R103): `RSV = w[31:3]` is checked first, then `OP = w[2:0]`. -/
def decodeCmd (w : Word) : Instr :=
  let rsv := w.extractLsb' 3 29
  let op := w.extractLsb' 0 3
  if rsv ≠ 0 then .illegalRsv rsv op
  else match op.toNat with
    | 0 => .nop
    | 1 => .beginCmd
    | 2 => .recover
    | 3 => .read
    | 4 => .measure
    | 5 => .start
    | 6 => .illegalOp6
    | _ => .illegalOp7

/-- The reads, `we = 0` (R100; spec/20_memory.md R88). -/
def decodeRead (addr : BitVec 4) : Instr :=
  match addr.toNat with
  | 0 => .rdCmd
  | 1 => .rdStatus
  | 2 => .rdErr
  | 3 => .rdData
  | 4 => .rdCsum
  | 5 => .rdRawLo
  | 6 => .rdRawHi
  | 7 => .rdProfAck
  | 8 => .rdProfLead
  | 9 => .rdProfBit
  | 10 => .rdTstamp
  | 11 => .rdNow
  | 12 => .rdValue
  | 13 => .rdRsvdD
  | 14 => .rdRsvdE
  | _ => .rdRsvdF

/-- The writes, `we = 1` (R100; spec/20_memory.md R88). -/
def decodeWrite (addr : BitVec 4) (v : Word) : Instr :=
  match addr.toNat with
  | 0 => .wrCmd v
  | 1 => .wrStatus v
  | 2 => .wrErr v
  | 3 => .wrData v
  | 4 => .wrCsum v
  | 5 => .wrRawLo v
  | 6 => .wrRawHi v
  | 7 => .wrProfAck v
  | 8 => .wrProfLead v
  | 9 => .wrProfBit v
  | 10 => .wrTstamp v
  | 11 => .wrNow v
  | 12 => .wrValue v
  | 13 => .wrRsvdD v
  | 14 => .wrRsvdE v
  | _ => .wrRsvdF v

/-- A bus transaction (R100): total, every one of the 32 patterns is legal. `wdata` means nothing in a read. -/
def decodeBus (r : BusReq) : Instr :=
  if r.we then decodeWrite r.addr r.wdata else decodeRead r.addr

/-- Either format. -/
def decodeCode : Code → Instr
  | .cmd w => decodeCmd w
  | .bus r => decodeBus r

/-- Four bytes, the least significant first, as a word (log 1). -/
def wordOfBytes (b0 b1 b2 b3 : Byte) : Word := b3 ++ b2 ++ b1 ++ b0

/-- An instruction's bytes (log 1): a CMD word is four bytes; a BUS transaction is its 5-bit pattern `we ++ addr` in a
byte, then four bytes of `wdata`; the least significant byte stands first. -/
def codeOfBytes : Format → List Byte → Except DecodeError Code
  | .cmd, [b0, b1, b2, b3] => .ok (.cmd (wordOfBytes b0 b1 b2 b3))
  | .bus, [p, b0, b1, b2, b3] =>
    if p.extractLsb' 5 3 ≠ 0 then .error .padBits
    else .ok (.bus { we := p.getLsbD 4, addr := p.extractLsb' 0 4, wdata := wordOfBytes b0 b1 b2 b3 })
  | _, _ => .error .badLength

/-- The decoder, total on any bytes. -/
def decode (f : Format) (bs : List Byte) : Except DecodeError Instr :=
  match codeOfBytes f bs with
  | .ok c => .ok (decodeCode c)
  | .error e => .error e

/-- The instruction the host's table numbering names: 32 bits are a CMD row, fewer (or a whole 40-bit transaction) a BUS
row, whose missing `wdata` bits are 0. -/
def decodeTableWord (nbits w : Nat) : Option Instr :=
  if nbits = 32 then (decode .cmd (bytesOf 4 w)).toOption
  else if nbits ≤ 40 then (decode .bus (bytesOf 5 w)).toOption
  else none

/-- The word of a command with no reserved bits (R101, R102). -/
def cmdWord (op : BitVec 3) : Code := .cmd (0#29 ++ op)

/-- A read transaction (R100). -/
def readReq (addr : BitVec 4) : Code := .bus { we := false, addr := addr, wdata := 0 }

/-- A write transaction (R100). -/
def writeReq (addr : BitVec 4) (v : Word) : Code := .bus { we := true, addr := addr, wdata := v }

/-- The encoding of an instruction, from the same tables (R100 to R103). -/
def encodeCode : Instr → Code
  | .nop => cmdWord 0
  | .beginCmd => cmdWord 1
  | .recover => cmdWord 2
  | .read => cmdWord 3
  | .measure => cmdWord 4
  | .start => cmdWord 5
  | .illegalOp6 => cmdWord 6
  | .illegalOp7 => cmdWord 7
  | .illegalRsv rsv op => .cmd (rsv ++ op)
  | .rdCmd => readReq 0
  | .rdStatus => readReq 1
  | .rdErr => readReq 2
  | .rdData => readReq 3
  | .rdCsum => readReq 4
  | .rdRawLo => readReq 5
  | .rdRawHi => readReq 6
  | .rdProfAck => readReq 7
  | .rdProfLead => readReq 8
  | .rdProfBit => readReq 9
  | .rdTstamp => readReq 10
  | .rdNow => readReq 11
  | .rdValue => readReq 12
  | .rdRsvdD => readReq 13
  | .rdRsvdE => readReq 14
  | .rdRsvdF => readReq 15
  | .wrCmd v => writeReq 0 v
  | .wrStatus v => writeReq 1 v
  | .wrErr v => writeReq 2 v
  | .wrData v => writeReq 3 v
  | .wrCsum v => writeReq 4 v
  | .wrRawLo v => writeReq 5 v
  | .wrRawHi v => writeReq 6 v
  | .wrProfAck v => writeReq 7 v
  | .wrProfLead v => writeReq 8 v
  | .wrProfBit v => writeReq 9 v
  | .wrTstamp v => writeReq 10 v
  | .wrNow v => writeReq 11 v
  | .wrValue v => writeReq 12 v
  | .wrRsvdD v => writeReq 13 v
  | .wrRsvdE v => writeReq 14 v
  | .wrRsvdF v => writeReq 15 v

/-- The format of an encoding. -/
def Code.format : Code → Format
  | .cmd _ => .cmd
  | .bus _ => .bus

/-- The bytes of a word, the least significant first (log 1). -/
def bytesOfWord (w : Word) : List Byte :=
  [w.extractLsb' 0 8, w.extractLsb' 8 8, w.extractLsb' 16 8, w.extractLsb' 24 8]

/-- The bytes of an encoding (log 1). -/
def codeBytes : Code → List Byte
  | .cmd w => bytesOfWord w
  | .bus r => (0#3 ++ BitVec.ofBool r.we ++ r.addr) :: bytesOfWord r.wdata

/-- The encoder: the bytes of a well-formed instruction. -/
def encode (i : Instr) : List Byte := codeBytes (encodeCode i)

/-- The format an instruction is written in. -/
def formatOf (i : Instr) : Format := (encodeCode i).format

end Sys2Proof
end

