-- ==== Sys2Proof/Machine/Fetch.lean ====
section
/-! DEFINITION. What happens next, and where an instruction comes from: the bus for the BUS rows, the command latch for
the commands (spec/20_memory.md R90, R93; spec/44_lifecycle.md R210, R211). -/
namespace Sys2Proof.Machine

/-- The instruction a latched command code stands for (spec/44_lifecycle.md R211); no other code is ever latched (R210). -/
def commandInstr (k : BitVec 3) : Option Instr :=
  match k.toNat with
  | 1 => some .beginCmd
  | 2 => some .recover
  | 3 => some .read
  | 4 => some .measure
  | 5 => some .start
  | _ => none

/-- A tick: with the sequencer idle and a command pending, it dispatches the command. -/
def tickTurn (s : State) : Turn :=
  if s.blk.phase = .idle ∧ s.blk.pendValid = true then
    match commandInstr s.blk.pendCmd with
    | some i => .dispatch i s
    | none => .tick s
  else .tick s

/-- What is left of a wait of `more + 1` ticks after one of them. -/
def waitAfter (more : Nat) (rest : List HostEvent) : List HostEvent :=
  match more with
  | 0 => rest
  | n + 1 => .wait n :: rest

/-- What is left after a read of STATUS by POLL (spec/45_host_interface.md R257): with BUSY read as 1, `more + 1` ticks
and POLL again (log 10). -/
def pollAfter (b : Block) (more : Nat) (rest : List HostEvent) : List HostEvent :=
  if busy b then .wait more :: .poll more :: rest else rest

/-- What comes next. Host accesses and ticks are one sequence (spec/20_memory.md R90); with nothing scripted, ticks pass. -/
def nextTurn (s : State) : Turn :=
  match s.script with
  | [] => tickTurn s
  | .wait more :: rest => tickTurn { s with script := waitAfter more rest }
  | .access r :: rest => .access (decodeBus r) { s with script := rest }
  | .poll more :: rest => .access .rdStatus { s with script := pollAfter s.blk more rest }
  | .rst :: rest => .reset { s with script := rest }

/-- The rest of a tick whose sequencer step went from `s` to `t`: the time advance (spec/40_pulse_width.md R133), and the
line one tick on. -/
def finishTick (s t : State) : State :=
  { t with blk := timeAdvance s.blk t.blk, lineIn := lineAfter s.lineIn, tickNo := s.tickNo + 1 }

/-- A tick that dispatches no command (spec/40_pulse_width.md R135). -/
def plainTick (s : State) : State :=
  finishTick s (onBlock (seqStep Config.params (sampleLine s)) s)

/-- Reset (spec/70_reset_and_hazards.md R300, R302): every element of the block as R54 says, whatever was going on; the
host and the environment are not the block. -/
def resetBlock (s : State) : State := { s with blk := Block.reset }

/-- The rest of a tick after the outcome of the instruction it dispatched. -/
def afterDispatch (s : State) : Host.Outcome State Fault Refusal → Host.Outcome State Fault Refusal
  | .next t => .next (finishTick s t)
  | .fault e => .fault e
  | .refused e => .refused e

/-- A bus transaction from the table's numbering of its bits (log 1). -/
def busReqOfNat (w : Nat) : BusReq where
  we := Nat.testBit w 4
  addr := BitVec.ofNat 4 w
  wdata := BitVec.ofNat 32 (w / 256)

/-- The transaction at the head of what the host does next. -/
def placeAccess (r : BusReq) (s : State) : State := { s with script := .access r :: s.script }

/-- A legal command in the latch, the sequencer idle, and a tick next. -/
def placeCommand (k : BitVec 3) (s : State) : State :=
  { s with blk := { s.blk with phase := .idle, pendValid := true, pendCmd := k }, script := .wait 0 :: s.script }

/-- Where an instruction is placed so that the very next step runs it (log 2): a command goes into the latch that the
dispatch reads; a word that is no command (NOP, illegal) acts when it is written, so its write goes onto the bus, as does
a BUS row. -/
def placeWord (s : State) (nbits w : Nat) : State :=
  if nbits = 32 then
    let v := BitVec.ofNat 32 w
    if v.extractLsb' 3 29 = 0 ∧ (commandInstr (v.extractLsb' 0 3)).isSome = true then placeCommand (v.extractLsb' 0 3) s
    else placeAccess { we := true, addr := 0, wdata := v } s
  else placeAccess (busReqOfNat w) s

end Sys2Proof.Machine
end

