-- ==== Sys2Proof/Machine/Step.lean ====
section
/-! DEFINITION. One step: a host access, a tick, or a reset (spec/00_scope.md R6; spec/20_memory.md R90). -/
namespace Sys2Proof.Machine

/-- One step of the machine. -/
def step (s : State) : Host.Outcome State Fault Refusal :=
  match nextTurn s with
  | .access i t => exec i t
  | .dispatch i t => afterDispatch t (exec i t)
  | .tick t => .next (plainTick t)
  | .reset t => .next (resetBlock t)

/-- The state whose next step runs the instruction of a table word. -/
def State.withFetchWord (s : State) (nbits w : Nat) : State := placeWord s nbits w

end Sys2Proof.Machine
end

