-- ==== Sys2Proof/Machine/HostSide.lean ====
section
/-! DEFINITION. The host's side: its program form and pseudo-instructions (spec/30_encoding.md R112, R113), the calls
they stand for and the numbers it makes of what it read (spec/45_host_interface.md R257 to R265). "Host programs, not
block operations": no step of the machine uses this file. -/
namespace Sys2Proof.Machine

/-- `RD a` (R112). -/
def hostRd (a : BitVec 4) : HostEvent := .access { we := false, addr := a, wdata := 0 }

/-- `WR a, v` (R112). -/
def hostWr (a : BitVec 4) (v : Word) : HostEvent := .access { we := true, addr := a, wdata := v }

/-- `WAIT n` (R112): no access while `n` ticks pass. -/
def hostWait : Nat → List HostEvent
  | 0 => []
  | n + 1 => [.wait n]

/-- `NOP`, `BEGIN`, `RECOVER`, `READ`, `MEASURE`, `START` as the host writes them (R113). -/
def hostCommand (op : BitVec 3) : HostEvent := hostWr 0 (op.setWidth 32)

/-- `CLRF` (R113; R255). -/
def hostClrf : HostEvent := hostWr 1 0x00003000

/-- A host program in which `gaps` ticks pass after its events, the first number after the first; with no number left, none.
DESIGN CHOICE: the spec does not say how many ticks pass between the accesses of a pseudo-instruction, so every number is
allowed, none included, and a program takes them as an argument (log 10). -/
def hostPaced : List Nat → List HostEvent → List HostEvent
  | _, [] => []
  | [], e :: rest => e :: hostPaced [] rest
  | gap :: gaps, e :: rest => e :: (hostWait gap ++ hostPaced gaps rest)

/-- `READ_SENSOR` (R258): READ; POLL; RD ERR; RD VALUE; RD CSUM; RD RAW_LO; RD RAW_HI, at a pace of the host's (log 10). -/
def hostReadSensor (more : Nat) (gaps : List Nat) : List HostEvent :=
  hostPaced gaps [hostCommand 3, .poll more, hostRd 2, hostRd 12, hostRd 4, hostRd 5, hostRd 6]

/-- `GET_HUMIDITY` begins with a READ_SENSOR of its own (R259). -/
def hostGetHumidity (more : Nat) (gaps : List Nat) : List HostEvent := hostReadSensor more gaps

/-- `GET_TEMPERATURE` begins with a READ_SENSOR of its own (R260). -/
def hostGetTemperature (more : Nat) (gaps : List Nat) : List HostEvent := hostReadSensor more gaps

/-- `GET_RAW` (R261): RD RAW_LO; RD RAW_HI, with `gap` ticks between them, which the host chooses (log 10). -/
def hostGetRaw (gap : Nat) : List HostEvent := hostPaced [gap] [hostRd 5, hostRd 6]

/-- `GET_ERROR` (R262): RD ERR. -/
def hostGetError : List HostEvent := [hostRd 2]

/-- The checksum outcome of a `ReadResult` (R258). -/
inductive ChecksumOutcome where
  | okMatch
  | mismatch
  | notChecked
deriving DecidableEq, Repr

/-- The `ReadResult` record (R258). -/
structure ReadResult where
  errorCode   : BitVec 8
  humidity    : BitVec 16
  temperature : Word
  checksum    : ChecksumOutcome
  rawFrame    : BitVec 64
  cached      : Bool
deriving DecidableEq, Repr

/-- The raw frame of the two RAW registers (R258, R261). -/
def rawFrameOf (rawHi rawLo : Word) : BitVec 64 := (rawHi.extractLsb' 0 8 ++ rawLo).setWidth 64

/-- The checksum outcome by result code (R258). -/
def checksumOutcome (err : BitVec 8) : ChecksumOutcome :=
  if err = 0x00 then .okMatch else if err = 0x03 then .mismatch else .notChecked

/-- The record from the registers READ_SENSOR read; `status` is POLL's last read (R258). -/
def readResultOf (status err value rawLo rawHi : Word) : ReadResult where
  errorCode := err.extractLsb' 0 8
  humidity := value.extractLsb' 0 16
  temperature := (value.extractLsb' 16 16).signExtend 32
  checksum := checksumOutcome (err.extractLsb' 0 8)
  rawFrame := rawFrameOf rawHi rawLo
  cached := status.getLsbD 15

/-- The result of READ_SENSOR from what the host read, newest first (R258). -/
def readSensorResult : List BusRead → Option ReadResult
  | rawHi :: rawLo :: _csum :: value :: err :: status :: _ =>
    some (readResultOf status.data err.data value.data rawLo.data rawHi.data)
  | _ => none

/-- The result of GET_RAW (R261). -/
def getRawResult : List BusRead → Option (BitVec 64)
  | rawHi :: rawLo :: _ => some (rawFrameOf rawHi.data rawLo.data)
  | _ => none

/-- The result of GET_ERROR (R262). -/
def getErrorResult : List BusRead → Option (BitVec 8)
  | err :: _ => some (err.data.extractLsb' 0 8)
  | _ => none

/-- The binary32 value nearest to `n / 10`, ties to even (R263, R264; the rounding is the spec's K1 and K2), for
`1 ≤ n < 2^24`: the quotient is scaled by `2^27` so that it has at least 24 bits, cut to 24 and rounded by its remainder.
A quotient that rounds up to `2^24` carries into the exponent. -/
def f32OfTenths (n : Nat) : BitVec 32 :=
  if n = 0 then 0
  else
    let m := n * 2 ^ 27
    let drop := Nat.log2 (m / 10) - 23
    let den := 10 * 2 ^ drop
    let q := m / den
    let rem := m % den
    let up := if den < 2 * rem ∨ (2 * rem = den ∧ q % 2 = 1) then 1 else 0
    BitVec.ofNat 32 ((drop + 123) * 2 ^ 23 + (q + up - 2 ^ 23))

/-- `HumF32(n)` (R263). -/
def humF32 (n : BitVec 16) : BitVec 32 := f32OfTenths n.toNat

/-- `TempF32(t)` (R264): the sign bit, and the magnitude as for a humidity; 0 has no sign. -/
def tempF32 (t : BitVec 16) : BitVec 32 :=
  if t.getLsbD 15 then 0x80000000 ||| f32OfTenths (-t).toNat else f32OfTenths t.toNat

/-- `SENTINEL_HUM = -1.0` (R265). -/
def sentinelHum : BitVec 32 := 0xBF800000

/-- What R265 asks of SENTINEL_TEMP: a value below `-3276.7`, the lowest value of `TempF32`. A negative binary32 value is
below another iff its other bits are more; a NaN is below nothing (log 14). -/
def sentinelTempLegal (x : BitVec 32) : Bool :=
  x.getLsbD 31 && decide ((tempF32 0x8001).toNat < x.toNat) && decide (x.toNat ≤ 0xFF800000)

/-- The binary32 values below `-3276.7`, the highest first (R265). -/
def sentinelTempAt (depth : Fin 976434381) : BitVec 32 := tempF32 0x8001 + 1 + BitVec.ofNat 32 depth.val

/-- SENTINEL_TEMP (R265), any of the values R265 allows (log 14). -/
def sentinelTemp : BitVec 32 := sentinelTempAt Config.sentinelTempDepth

/-- The value of GET_HUMIDITY (R259). -/
def getHumidityResult (r : ReadResult) : BitVec 32 :=
  if r.errorCode = 0x00 then humF32 r.humidity else sentinelHum

/-- The value of GET_TEMPERATURE (R260). -/
def getTemperatureResult (r : ReadResult) : BitVec 32 :=
  if r.errorCode = 0x00 then tempF32 (r.temperature.extractLsb' 0 16) else sentinelTemp

end Sys2Proof.Machine
end

