-- ==== Sys2Proof/Safety.lean ====
section
/-! DEFINITION. What counts as a safe state and a safe run, in the terms the statements use: the profile's bounds
(spec/10_state.md R72), the invariant of every block a run reaches, the completion bounds (spec/70_reset_and_hazards.md
R316), and the waveforms a sensor sends (spec/30_encoding.md R110). -/
namespace Sys2Proof.Machine

/-- The bounds of the timing profile (spec/10_state.md R72; spec/42_calibrator.md R166). -/
structure ProfileOk (p : Params) (t : Profile) : Prop where
  zero_le  : t.bitHighZero.toNat ≤ p.classThreshUs
  one_gt   : p.classThreshUs < t.bitHighOne.toNat
  one_le   : t.bitHighOne.toNat ≤ p.calTimeoutUs
  lead_pos : 1 ≤ t.bitLeadLow.toNat
  lead_le  : t.bitLeadLow.toNat ≤ p.calTimeoutUs
  ackl_pos : 1 ≤ t.ack80Low.toNat
  ackl_le  : t.ack80Low.toNat ≤ p.calTimeoutUs
  ackh_pos : 1 ≤ t.ack80High.toNat
  ackh_le  : t.ack80High.toNat ≤ p.calTimeoutUs

/-- A duration a calibration wait can measure: `d` in `1 .. CAL_TIMEOUT_US` (spec/42_calibrator.md R166). -/
def Measured (p : Params) (d : Dur) : Prop := 1 ≤ d.toNat ∧ d.toNat ≤ p.calTimeoutUs

/-- The phases that sample the line (spec/40_pulse_width.md R131). -/
def sampling : Phase → Bool
  | .idle => false
  | .startLow => false
  | _ => true

/-- The phases before the first bit (spec/41_initiator.md R152 to R155). -/
def beforeBits : Phase → Bool
  | .startLow => true
  | .wResp => true
  | .wAckL => true
  | .wAckH => true
  | _ => false

/-- The count at which a phase must have ended: a wait's bound, the low hold, the settle delay. -/
def phaseLimit (p : Params) (b : Block) : Nat :=
  match b.phase with
  | .startLow => p.startLowUs
  | .settle => p.settleUs
  | _ => waitBound p b

/-- What a running calibration has measured so far (spec/10_state.md R47; spec/42_calibrator.md R161, R162). -/
structure ScratchOk (p : Params) (b : Block) : Prop where
  ackl   : b.phase = .wAckH ∨ b.phase = .wLead ∨ b.phase = .wHigh → Measured p b.scratch.ackl
  ackh   : b.phase = .wLead ∨ b.phase = .wHigh → Measured p b.scratch.ackh
  lead   : b.phase = .wHigh ∨ (b.phase = .wLead ∧ b.bitcnt ≠ 0) → Measured p b.scratch.lead
  zero   : b.scratch.seen0 = true → b.scratch.h0.toNat ≤ p.classThreshUs
  one    : b.scratch.seen1 = true → p.classThreshUs < b.scratch.h1.toNat ∧ b.scratch.h1.toNat ≤ p.calTimeoutUs
  notAll : ¬(b.scratch.seen0 = true ∧ b.scratch.seen1 = true)

/-- The codes `ERR` can hold (spec/30_encoding.md R105). -/
def legalCode (c : BitVec 8) : Bool :=
  c.toNat ≤ 0x03 || (0x11 ≤ c.toNat && c.toNat ≤ 0x15) || (0x21 ≤ c.toNat && c.toNat ≤ 0x25)

/-- The invariant of every block that a run from reset reaches. -/
structure BlockInv (p : Params) (b : Block) : Prop where
  /-- spec/10_state.md R45: `pre_cnt` in `0 .. CLKS_PER_US-1`. -/
  prescaler : b.preCnt < p.clksPerUs
  /-- R45: `us_cnt` in `0 .. 999`. -/
  micros : b.usCnt.toNat ≤ 999
  /-- spec/44_lifecycle.md R210: a command is latched only with the sequencer idle, and only a legal one. -/
  latch : b.pendValid = true → b.phase = .idle ∧ 1 ≤ b.pendCmd.toNat ∧ b.pendCmd.toNat ≤ 5
  /-- A calibration serves BEGIN, RECOVER, READ or MEASURE (spec/44_lifecycle.md R213, spec/42_calibrator.md R165). -/
  calOp : b.phase ≠ .idle → b.mode = .cal → 1 ≤ b.op.toNat ∧ b.op.toNat ≤ 4
  /-- A decode serves READ, and START runs the low hold alone (spec/41_initiator.md R152, R156). -/
  decOp : b.phase ≠ .idle → b.mode = .dec → b.op = 3 ∨ (b.op = 5 ∧ b.phase = .startLow)
  /-- A decode runs only with `cal_done = 1` (spec/43_decoder.md R192). -/
  decCal : b.phase ≠ .idle → b.mode = .dec → b.op = 3 → b.calDone = true
  /-- `SETTLE` is for a decode only (spec/30_encoding.md R107). -/
  settleDec : b.phase = .settle → b.mode = .dec
  /-- The counter stays below what its phase ends at (spec/40_pulse_width.md R136). -/
  count : b.phase ≠ .idle → b.cnt.toNat < phaseLimit p b
  /-- The start signal drives the line low (spec/41_initiator.md R151). -/
  drivenLow : b.phase = .startLow → b.lineOe = true ∧ b.lineOut = false
  /-- The line is sampled only while it is released (spec/40_pulse_width.md R131). -/
  released : sampling b.phase = true → b.lineOe = false
  /-- Before the first bit no bit is counted (spec/41_initiator.md R151). -/
  noBits : beforeBits b.phase = true → b.bitcnt = 0
  /-- A decode samples 40 bits (spec/43_decoder.md R183, R184). -/
  decBits : b.mode = .dec → (b.phase = .wLead ∨ b.phase = .settle → b.bitcnt.toNat ≤ 39) ∧
    (b.phase = .wHigh → 1 ≤ b.bitcnt.toNat ∧ b.bitcnt.toNat ≤ 40)
  /-- A calibration stops at CAL_MAX_BITS pulses (spec/42_calibrator.md R162). -/
  calBits : b.phase ≠ .idle → b.mode = .cal → b.bitcnt.toNat < p.calMaxBits
  /-- `BITCNT` is never above `max(40, CAL_MAX_BITS)` (spec/10_state.md R57). -/
  bits : b.bitcnt.toNat ≤ max 40 p.calMaxBits
  /-- spec/10_state.md R72. -/
  profileOk : b.calDone = true → ProfileOk p b.profile
  /-- spec/10_state.md R47. -/
  scratchOk : b.phase ≠ .idle → b.mode = .cal → ScratchOk p b
  /-- `acc[39:n]` is 0 after `n` samples of a decode (spec/43_decoder.md R183). -/
  accHigh : b.phase ≠ .idle → b.mode = .dec → b.op = 3 → b.acc.toNat < 2 ^ b.bitcnt.toNat
  /-- Only a decode whose checksum validates sets the cached frame (spec/10_state.md R49; spec/43_decoder.md R192). -/
  cachedFrame : b.frameValid = true → checksumOk b.frame = true ∧ b.calDone = true
  /-- spec/30_encoding.md R105. -/
  code : legalCode b.err = true
  /-- READY is stored only by a successful calibration (spec/42_calibrator.md R163). -/
  readyCal : b.lstate = .ready → b.calDone = true
  /-- `done` is cleared at a dispatch and set at the completion (spec/10_state.md R37). -/
  notDone : b.phase ≠ .idle → b.done = false

/-- Whether the next event of a state is a tick. -/
def tickNext (s : State) : Bool :=
  match s.script with
  | [] => true
  | .wait _ :: _ => true
  | _ => false

/-- What the host does after a tick. -/
def scriptAfterTick : List HostEvent → List HostEvent
  | .wait more :: rest => waitAfter more rest
  | es => es

/-- The state after a tick whose block is `b`. -/
def tickedWith (s : State) (b : Block) : State :=
  { s with blk := b, script := scriptAfterTick s.script, lineIn := lineAfter s.lineIn, tickNo := s.tickNo + 1 }

/-- A bounded wait over the line's levels at successive ticks (spec/40_pulse_width.md R136): how it goes, and the levels
of the ticks after it. -/
def waitRun (L : Bool) (B : Nat) : Dur → List Bool → WaitOutcome × List Bool
  | c, [] => (.holding c, [])
  | c, lvl :: rest =>
    match waitStep lvl L B c with
    | .holding c' => waitRun L B c' rest
    | o => (o, rest)

/-- The worst case of a calibration (spec/70_reset_and_hazards.md R316). -/
def tCal (p : Params) : Nat := p.startLowUs + 3 * p.calTimeoutUs + 2 * p.calTimeoutUs * p.calMaxBits

/-- The worst case of a decode with a profile (R316). -/
def tDec (p : Params) (t : Profile) : Nat :=
  p.startLowUs + 3 * p.ackTimeoutUs
    + 40 * (t.bitLeadLow.toNat + p.leadSlackUs + p.settleUs + t.bitHighOne.toNat)

/-- The worst case of a decode with any profile (R316). -/
def tDecMax (p : Params) : Nat :=
  p.startLowUs + 3 * p.ackTimeoutUs + 40 * (2 * p.calTimeoutUs + p.leadSlackUs + p.settleUs)

/-- The most ticks from the dispatch of the pending command to its completion (R316). -/
def commandBound (p : Params) (b : Block) : Nat :=
  match b.pendCmd.toNat with
  | 3 => if b.calDone then tDec p b.profile else tCal p + tDecMax p
  | 5 => p.startLowUs
  | _ => tCal p

/-- One bit on the line: its value, the ticks of its lead-in and of its high phase (spec/30_encoding.md R110). -/
structure LineBit where
  value : Bool
  lead  : Nat
  high  : Nat
deriving DecidableEq, Repr

/-- The levels of a bit: low for its lead-in, then high. -/
def bitLevels (x : LineBit) : List Bool := List.replicate x.lead false ++ List.replicate x.high true

/-- The levels of a transmission after the start signal's release (R110; spec/70_reset_and_hazards.md R315): high until
the `resp`-th tick, the acknowledgement low and high, then the bits. -/
def transmission (resp ackl ackh : Nat) (bits : List LineBit) : List Bool :=
  List.replicate (resp - 1) true ++ List.replicate ackl false ++ List.replicate ackh true ++ bits.flatMap bitLevels

/-- A bit a decoder with this profile can tell: its value shows at the settle delay, and its phases are within the bounds
of spec/40_pulse_width.md R138. The lead-in outlasts the settle delay, so that a 0 is sampled before the next rising edge
(spec/43_decoder.md R182). -/
structure BitDecodable (p : Params) (t : Profile) (x : LineBit) : Prop where
  lead_lo  : p.settleUs < x.lead
  lead_hi  : x.lead ≤ t.bitLeadLow.toNat + p.leadSlackUs
  high_pos : 1 ≤ x.high
  high_hi  : x.high ≤ p.settleUs + t.bitHighOne.toNat
  value    : x.value = decide (p.settleUs < x.high)

/-- The number that bits make, the first the most significant (spec/30_encoding.md R109). -/
def bitsValue (bits : List Bool) : Nat := bits.foldl (fun n b => 2 * n + b.toNat) 0

/-- A pulse a calibration can measure: lead-in and high phase in `1 .. CAL_TIMEOUT_US` (spec/42_calibrator.md R166). -/
structure PulseMeasurable (p : Params) (x : LineBit) : Prop where
  lead_pos : 1 ≤ x.lead
  lead_hi  : x.lead ≤ p.calTimeoutUs
  high_pos : 1 ≤ x.high
  high_hi  : x.high ≤ p.calTimeoutUs

/-- The scratch that nothing has been measured into (spec/42_calibrator.md R160). -/
def emptyScratch : Scratch :=
  { ackl := 0, ackh := 0, lead := 0, h0 := 0, h1 := 0, seen0 := false, seen1 := false }

/-- What a sequence that fails at the stage with code `g` leaves (spec/42_calibrator.md R164; spec/43_decoder.md R190):
a calibration error or a decode timing error, and the lifecycle of the command a calibration serves. -/
def failedAt (g : BitVec 8) (b : Block) : Block :=
  match b.mode with
  | .dec => { b with err := 0x10 + g, done := true, phase := .idle }
  | .cal => { b with
      err := 0x20 + g
      done := true
      phase := .idle
      lstate := if b.op = 1 ∨ b.op = 2 ∨ b.op = 3 then .uninitialized else b.lstate
      recovering := if b.op = 2 then false else b.recovering }

/-- What `StartSeq` leaves of a block (spec/41_initiator.md R151), in a mode and with a scratch. -/
def startedIn (m : Mode) (sc : Scratch) (b : Block) : Block :=
  { b with mode := m, phase := .startLow, cnt := 0, bitcnt := 0, lineOe := true, lineOut := false, scratch := sc }

/-- What a dispatch leaves of a block (spec/44_lifecycle.md R211) before its command acts. -/
def dispatched (k : BitVec 3) (b : Block) : Block :=
  { b with pendValid := false, op := k, done := false, cached := false }

/-- Whether the next event is a reset. -/
def resetNext (s : State) : Bool := s.script.head? == some .rst

end Sys2Proof.Machine
end

