-- ==== Sys2Proof/Certificates/Slice0/Obligations.lean ====
section
/-! DEFINITION. The statements for the provers. Each docstring names the rules of spec/ it formalises. -/

open Sys2Proof Sys2Proof.Machine

/-! ## Encoding -/

/-- spec/30_encoding.md R100 to R103: the bytes of every well-formed instruction decode to it, with every operand. -/
def Obligations.DecodeOfEncodeIsIdentity : Prop :=
  ∀ i : Instr, i.wellFormed = true → decode (formatOf i) (encode i) = .ok i

/-- R101 to R103: every command word is the encoding of the well-formed instruction it decodes to. -/
def Obligations.EveryCommandWordReencodes : Prop :=
  ∀ w : Word, (decodeCmd w).wellFormed = true ∧ encodeCode (decodeCmd w) = .cmd w

/-- R100: every transaction decodes to an instruction whose encoding is that transaction; the `wdata` of a read, which
means nothing, becomes 0. -/
def Obligations.EveryTransactionReencodes : Prop :=
  ∀ r : BusReq, (decodeBus r).wellFormed = true ∧
    encodeCode (decodeBus r) = .bus { r with wdata := if r.we then r.wdata else 0 }

/-- Words written out from R100 and R102. -/
def Obligations.SpecWordsDecode : Prop :=
  decodeTableWord 32 0x00000000 = some .nop ∧ decodeTableWord 32 0x00000001 = some .beginCmd ∧
  decodeTableWord 32 0x00000003 = some .read ∧ decodeTableWord 32 0x00000006 = some .illegalOp6 ∧
  decodeTableWord 32 0x00000008 = some (.illegalRsv 1 0) ∧
  decodeTableWord 8 0b00001 = some .rdStatus ∧ decodeTableWord 8 0b01100 = some .rdValue ∧
  decodeTableWord 8 0b10000 = some (.wrCmd 0) ∧ decodeTableWord 8 0b11010 = some (.wrTstamp 0) ∧
  decode .bus [0b10001, 0x00, 0x30, 0x00, 0x00] = .ok (.wrStatus 0x00003000)

/-! ## The step -/

/-- spec/20_memory.md R90, R93; spec/44_lifecycle.md R211: where an instruction is fetched, the step is its meaning. A bus
transaction runs as it decodes; POLL reads STATUS; a pending command runs at the tick that dispatches it, and the tick's
time advance follows. -/
def Obligations.StepRunsTheFetchedInstruction : Prop :=
  (∀ (s : State) (r : BusReq) (rest : List HostEvent) (i : Instr), s.script = .access r :: rest →
    decode .bus (codeBytes (.bus r)) = .ok i → step s = exec i { s with script := rest }) ∧
  (∀ (s : State) (more : Nat) (rest : List HostEvent), s.script = .poll more :: rest →
    step s = exec .rdStatus { s with script := if busy s.blk then .wait more :: .poll more :: rest else rest }) ∧
  (∀ s : State, tickNext s = true → s.blk.phase = .idle → s.blk.pendValid = true →
    1 ≤ s.blk.pendCmd.toNat → s.blk.pendCmd.toNat ≤ 5 →
    step s = afterDispatch { s with script := scriptAfterTick s.script }
      (exec (decodeCmd (0#29 ++ s.blk.pendCmd)) { s with script := scriptAfterTick s.script }))

/-- spec/40_pulse_width.md R130, R135: a tick is the sequencer step with the line's sample, and the time advance, whether or
not it dispatches a command. -/
def Obligations.TickIsSequencerStepAndTimeAdvance : Prop :=
  ∀ s : State, tickNext s = true →
    step s = .next (tickedWith s (timeAdvance s.blk (seqStep Config.params (sampleLine s) s.blk)))

/-- R130: from a prescaler count of 0 to `CLKS_PER_US - 1`, the clock edges up to the tick's closing edge do what the
machine's one tick does, and the edges before it only count. -/
def Obligations.TickIsTheClockEdgesOfAMicrosecond : Prop :=
  ∀ (p : Params) (lvl : Bool) (b : Block), p.Valid → b.preCnt < p.clksPerUs →
    clkEdges p lvl (p.clksPerUs - b.preCnt) b = tickBlock p lvl b ∧
    ∀ n, n < p.clksPerUs - b.preCnt → clkEdges p lvl n b = { b with preCnt := b.preCnt + n }

/-- R133: the millisecond clock after any number of ticks, whatever runs meanwhile; from reset it is
`floor((k-1)/1000) mod 2^32` as the sequencer sees it at the `k`-th tick. -/
def Obligations.TimeAfterTicks : Prop :=
  (∀ (p : Params) (levels : List Bool) (b : Block), b.usCnt.toNat ≤ 999 →
    (tickRun p levels b).usCnt.toNat = (b.usCnt.toNat + levels.length) % 1000 ∧
    (tickRun p levels b).nowMs.toNat = (b.nowMs.toNat + (b.usCnt.toNat + levels.length) / 1000) % 2 ^ 32) ∧
  (∀ (p : Params) (levels : List Bool) (k : Nat), 1 ≤ k → levels.length = k - 1 →
    (tickRun p levels Block.reset).nowMs.toNat = (k - 1) / 1000 % 2 ^ 32)

/-! ## The pulse-width detector and the derived signals -/

/-- R136; spec/60_exceptions.md R281: one tick of a wait, whose level change beats its bound; and a wait entered with the
count 0. Off the level at the `j`-th tick with `j <= B`, it ends there with `d = j`; at
the level at every tick up to the `B`-th, it times out there. -/
def Obligations.BoundedWaitEndsOrTimesOut : Prop :=
  (∀ (lvl L : Bool) (B : Nat) (cnt : Dur),
    (lvl ≠ L → waitStep lvl L B cnt = .ended (cnt + 1)) ∧
    (lvl = L → B ≤ (cnt + 1).toNat → waitStep lvl L B cnt = .timedOut) ∧
    (lvl = L → (cnt + 1).toNat < B → waitStep lvl L B cnt = .holding (cnt + 1))) ∧
  ∀ (L : Bool) (B : Nat), 1 ≤ B → B ≤ 65535 →
    (∀ (j : Nat) (rest : List Bool), 1 ≤ j → j ≤ B →
      waitRun L B 0 (List.replicate (j - 1) L ++ (!L) :: rest) = (.ended (BitVec.ofNat 16 j), rest)) ∧
    (∀ rest : List Bool, waitRun L B 0 (List.replicate B L ++ rest) = (.timedOut, rest))

/-- spec/41_initiator.md R150: `e` ms after the last start, however many, the interval is busy iff a start is recorded and
`e` modulo `2^32` is below the minimum. -/
def Obligations.IntervalBusyIsModularElapsedTime : Prop :=
  ∀ (p : Params) (b : Block) (e : Nat),
    b.nowMs.toNat = (b.lastStartMs.toNat + e) % 2 ^ 32 →
    intervalBusy p b = (b.tsValid && decide (e % 2 ^ 32 < p.minIntervalMs))

/-! ## Register reads -/

/-- spec/45_host_interface.md R241, spec/10_state.md R52, R53: what STATUS returns, field by field. -/
def Obligations.ReadStatusFields : Prop :=
  (∀ w : Word, decodeBus { we := false, addr := 0x1, wdata := w } = .rdStatus) ∧
  ∀ s : State, ∃ v : Word,
    exec .rdStatus s = .next { s with rdLog := { addr := 1, data := v } :: s.rdLog } ∧
    v.getLsbD 0 = (s.blk.pendValid || decide (s.blk.phase ≠ .idle)) ∧
    v.getLsbD 1 = s.blk.done ∧
    v.extractLsb' 2 3 = (if s.blk.phase ≠ .idle then (if s.blk.mode = .cal then 2 else 4)
      else match s.blk.lstate with | .poweredOn => 0 | .uninitialized => 1 | .ready => 3) ∧
    v.getLsbD 5 = s.blk.recovering ∧ v.getLsbD 6 = s.blk.calDone ∧ v.getLsbD 7 = s.blk.frameValid ∧
    v.getLsbD 8 = (s.blk.tsValid && decide ((s.blk.nowMs - s.blk.lastStartMs).toNat < 2000)) ∧
    v.getLsbD 9 = s.blk.tsValid ∧ v.getLsbD 10 = s.blk.lineOe ∧ v.getLsbD 11 = s.blk.lineOut ∧
    v.getLsbD 12 = s.blk.ovr ∧ v.getLsbD 13 = s.blk.ill ∧ v.getLsbD 14 = decide (s.blk.mode = .cal) ∧
    v.getLsbD 15 = s.blk.cached ∧ v.extractLsb' 16 3 = s.blk.op ∧
    v.extractLsb' 19 3 = (match s.blk.phase with
      | .idle => 0 | .startLow => 1 | .wResp => 2 | .wAckL => 3 | .wAckH => 4 | .wLead => 5 | .settle => 6 | .wHigh => 7) ∧
    v.extractLsb' 22 6 = s.blk.bitcnt ∧ v.extractLsb' 28 4 = 0

/-- R242 to R246 and R252: what ERR, DATA, CSUM, RAW_LO, RAW_HI and VALUE return. -/
def Obligations.ReadResultRegisters : Prop :=
  (∀ w : Word, decodeBus { we := false, addr := 0x2, wdata := w } = .rdErr ∧
    decodeBus { we := false, addr := 0x3, wdata := w } = .rdData ∧
    decodeBus { we := false, addr := 0x4, wdata := w } = .rdCsum ∧
    decodeBus { we := false, addr := 0x5, wdata := w } = .rdRawLo ∧
    decodeBus { we := false, addr := 0x6, wdata := w } = .rdRawHi ∧
    decodeBus { we := false, addr := 0xC, wdata := w } = .rdValue) ∧
  ∀ s : State,
    exec .rdErr s = .next { s with rdLog := { addr := 2, data := BitVec.ofNat 32 s.blk.err.toNat } :: s.rdLog } ∧
    exec .rdData s = .next { s with rdLog := { addr := 3, data := BitVec.ofNat 32 (s.blk.frame.toNat / 2 ^ 8) } :: s.rdLog } ∧
    exec .rdCsum s = .next { s with
      rdLog := { addr := 4, data := BitVec.ofNat 32 (s.blk.csCalc.toNat * 256 + s.blk.frame.toNat % 256) } :: s.rdLog } ∧
    exec .rdRawLo s = .next { s with rdLog := { addr := 5, data := BitVec.ofNat 32 s.blk.acc.toNat } :: s.rdLog } ∧
    exec .rdRawHi s = .next { s with rdLog := { addr := 6, data := BitVec.ofNat 32 (s.blk.acc.toNat / 2 ^ 32) } :: s.rdLog } ∧
    ∃ v : Word, exec .rdValue s = .next { s with rdLog := { addr := 12, data := v } :: s.rdLog } ∧
      v.extractLsb' 0 16 = s.blk.frame.extractLsb' 24 16 ∧
      (v.extractLsb' 16 16).toInt =
        (if s.blk.frame.getLsbD 23 then -((s.blk.frame.extractLsb' 8 15).toNat : Int) else (s.blk.frame.extractLsb' 8 15).toNat)

/-- R247 to R251: what PROF_ACK, PROF_LEAD, PROF_BIT, TSTAMP and NOW return. -/
def Obligations.ReadProfileAndTimeRegisters : Prop :=
  (∀ w : Word, decodeBus { we := false, addr := 0x7, wdata := w } = .rdProfAck ∧
    decodeBus { we := false, addr := 0x8, wdata := w } = .rdProfLead ∧
    decodeBus { we := false, addr := 0x9, wdata := w } = .rdProfBit ∧
    decodeBus { we := false, addr := 0xA, wdata := w } = .rdTstamp ∧
    decodeBus { we := false, addr := 0xB, wdata := w } = .rdNow) ∧
  ∀ s : State,
    exec .rdProfAck s = .next { s with
      rdLog := {
        addr := 7
        data := BitVec.ofNat 32 (s.blk.profile.ack80High.toNat * 65536 + s.blk.profile.ack80Low.toNat) } :: s.rdLog } ∧
    exec .rdProfLead s = .next { s with
      rdLog := { addr := 8, data := BitVec.ofNat 32 s.blk.profile.bitLeadLow.toNat } :: s.rdLog } ∧
    exec .rdProfBit s = .next { s with
      rdLog := {
        addr := 9
        data := BitVec.ofNat 32 (s.blk.profile.bitHighOne.toNat * 65536 + s.blk.profile.bitHighZero.toNat) } :: s.rdLog } ∧
    exec .rdTstamp s = .next { s with rdLog := { addr := 10, data := s.blk.lastStartMs } :: s.rdLog } ∧
    exec .rdNow s = .next { s with rdLog := { addr := 11, data := s.blk.nowMs } :: s.rdLog }

/-- R240, R253: CMD and the reserved addresses read 0, in every state. -/
def Obligations.ReadZeroRegisters : Prop :=
  (∀ w : Word, decodeBus { we := false, addr := 0x0, wdata := w } = .rdCmd ∧
    decodeBus { we := false, addr := 0xD, wdata := w } = .rdRsvdD ∧
    decodeBus { we := false, addr := 0xE, wdata := w } = .rdRsvdE ∧
    decodeBus { we := false, addr := 0xF, wdata := w } = .rdRsvdF) ∧
  ∀ s : State,
    exec .rdCmd s = .next { s with rdLog := { addr := 0, data := 0x00000000 } :: s.rdLog } ∧
    exec .rdRsvdD s = .next { s with rdLog := { addr := 13, data := 0x00000000 } :: s.rdLog } ∧
    exec .rdRsvdE s = .next { s with rdLog := { addr := 14, data := 0x00000000 } :: s.rdLog } ∧
    exec .rdRsvdF s = .next { s with rdLog := { addr := 15, data := 0x00000000 } :: s.rdLog }

/-- spec/20_memory.md R80, R87, R88: every read transaction returns the register its address names, and changes nothing
else. -/
def Obligations.EveryReadReturnsItsRegister : Prop :=
  ∀ (s : State) (a : BitVec 4) (w : Word),
    exec (decodeBus { we := false, addr := a, wdata := w }) s =
      .next { s with rdLog := { addr := a, data := regRead Config.params a s.blk } :: s.rdLog }

/-! ## Register writes -/

/-- spec/44_lifecycle.md R210: the admission of a command word, the checks in their order; and a latched command is
dispatched at the next tick. -/
def Obligations.WriteCommandAdmission : Prop :=
  ∀ (s : State) (v : Word),
    let legal := v.toNat < 6
    let busyNow := s.blk.pendValid = true ∨ s.blk.phase ≠ .idle
    (v = 0x00000000 → exec (.wrCmd v) s = .next s) ∧
    (¬legal → exec (.wrCmd v) s = .next { s with blk := { s.blk with ill := true } }) ∧
    (v ≠ 0x00000000 → legal → busyNow → exec (.wrCmd v) s = .next { s with blk := { s.blk with ovr := true } }) ∧
    (v ≠ 0x00000000 → legal → ¬busyNow →
      let latched : State := { s with blk := { s.blk with pendValid := true, pendCmd := BitVec.ofNat 3 v.toNat } }
      exec (.wrCmd v) s = .next latched ∧
      (tickNext latched = true → ∃ t, step latched = .next t ∧ t.blk.pendValid = false ∧ t.blk.op.toNat = v.toNat))

/-- spec/45_host_interface.md R255: bits 12 and 13 clear OVR and ILL, every other bit is ignored. -/
def Obligations.WriteStatusClearsFlags : Prop :=
  ∀ (s : State) (v : Word), decodeBus { we := true, addr := 0x1, wdata := v } = .wrStatus v ∧
    exec (.wrStatus v) s = .next { s with blk := { s.blk with
      ovr := if v.getLsbD 12 then false else s.blk.ovr
      ill := if v.getLsbD 13 then false else s.blk.ill } }

/-- R256: a write to any address from 0x2 to 0xF has no effect on any state. -/
def Obligations.IgnoredWritesChangeNothing : Prop :=
  ∀ (s : State) (v : Word),
    exec (.wrErr v) s = .next s ∧ exec (.wrData v) s = .next s ∧ exec (.wrCsum v) s = .next s ∧
    exec (.wrRawLo v) s = .next s ∧ exec (.wrRawHi v) s = .next s ∧ exec (.wrProfAck v) s = .next s ∧
    exec (.wrProfLead v) s = .next s ∧ exec (.wrProfBit v) s = .next s ∧ exec (.wrTstamp v) s = .next s ∧
    exec (.wrNow v) s = .next s ∧ exec (.wrValue v) s = .next s ∧ exec (.wrRsvdD v) s = .next s ∧
    exec (.wrRsvdE v) s = .next s ∧ exec (.wrRsvdF v) s = .next s ∧
    ∀ a : BitVec 4, 2 ≤ a.toNat → exec (decodeBus { we := true, addr := a, wdata := v }) s = .next s

/-! ## The command words -/

/-- spec/44_lifecycle.md R216, R217; spec/30_encoding.md R103: NOP does nothing; every illegal word sets `ill` and nothing
else, busy or not; as a write of the word to CMD does. -/
def Obligations.NopAndIllegalWords : Prop :=
  (∀ s : State, exec .nop s = .next s ∧ exec (.wrCmd 0x00000000) s = exec .nop s) ∧
  (∀ s : State, exec .illegalOp6 s = .next { s with blk := { s.blk with ill := true } } ∧
    exec .illegalOp7 s = .next { s with blk := { s.blk with ill := true } }) ∧
  (∀ (s : State) (rsv : BitVec 29) (op : BitVec 3),
    exec (.illegalRsv rsv op) s = .next { s with blk := { s.blk with ill := true } }) ∧
  (∀ (s : State) (w : Word), 6 ≤ w.toNat → exec (.wrCmd w) s = exec (decodeCmd w) s)

/-- spec/44_lifecycle.md R211, R213, R214: BEGIN at its dispatch. -/
def Obligations.BeginAtItsDispatch : Prop :=
  ∀ s : State,
    (s.blk.lstate = .poweredOn → exec .beginCmd s = .next { s with blk := { dispatched 1 s.blk with
      lstate := .uninitialized, lastStartMs := s.blk.nowMs, tsValid := true, err := 0x01, done := true, phase := .idle } }) ∧
    (s.blk.lstate ≠ .poweredOn → intervalBusy Config.params s.blk = true →
      exec .beginCmd s = .next { s with blk := { dispatched 1 s.blk with err := 0x02, done := true, phase := .idle } }) ∧
    (s.blk.lstate ≠ .poweredOn → intervalBusy Config.params s.blk = false →
      exec .beginCmd s = .next { s with blk := startedIn .cal emptyScratch (dispatched 1 s.blk) })

/-- spec/44_lifecycle.md R211, R213, R215: RECOVER at its dispatch. -/
def Obligations.RecoverAtItsDispatch : Prop :=
  ∀ s : State,
    (s.blk.recovering = false → exec .recover s = .next { s with blk := { dispatched 2 s.blk with
      recovering := true, frameValid := false, lstate := .uninitialized, lastStartMs := s.blk.nowMs, tsValid := true,
      err := 0x01, done := true, phase := .idle } }) ∧
    (s.blk.recovering = true → s.blk.lstate = .poweredOn → exec .recover s = .next { s with blk := { dispatched 2 s.blk with
      lstate := .uninitialized, lastStartMs := s.blk.nowMs, tsValid := true, err := 0x01, done := true, phase := .idle } }) ∧
    (s.blk.recovering = true → s.blk.lstate ≠ .poweredOn → intervalBusy Config.params s.blk = true →
      exec .recover s = .next { s with blk := { dispatched 2 s.blk with err := 0x02, done := true, phase := .idle } }) ∧
    (s.blk.recovering = true → s.blk.lstate ≠ .poweredOn → intervalBusy Config.params s.blk = false →
      exec .recover s = .next { s with blk := startedIn .cal emptyScratch (dispatched 2 s.blk) })

/-- spec/43_decoder.md R191, R192; spec/44_lifecycle.md R211, R213: READ at its dispatch, before and after the first
calibration. -/
def Obligations.ReadAtItsDispatch : Prop :=
  ∀ s : State,
    (s.blk.calDone = false → s.blk.lstate = .poweredOn → exec .read s = .next { s with blk := { dispatched 3 s.blk with
      lstate := .uninitialized, lastStartMs := s.blk.nowMs, tsValid := true, err := 0x01, done := true, phase := .idle } }) ∧
    (s.blk.calDone = false → s.blk.lstate ≠ .poweredOn → intervalBusy Config.params s.blk = true →
      exec .read s = .next { s with blk := { dispatched 3 s.blk with err := 0x02, done := true, phase := .idle } }) ∧
    (s.blk.calDone = false → s.blk.lstate ≠ .poweredOn → intervalBusy Config.params s.blk = false →
      exec .read s = .next { s with blk := startedIn .cal emptyScratch (dispatched 3 s.blk) }) ∧
    (s.blk.calDone = true → intervalBusy Config.params s.blk = true → s.blk.frameValid = true →
      exec .read s = .next { s with blk := { dispatched 3 s.blk with
        cached := true, err := 0x00, done := true, phase := .idle } }) ∧
    (s.blk.calDone = true → intervalBusy Config.params s.blk = true → s.blk.frameValid = false →
      exec .read s = .next { s with blk := { dispatched 3 s.blk with err := 0x02, done := true, phase := .idle } }) ∧
    (s.blk.calDone = true → intervalBusy Config.params s.blk = false →
      exec .read s = .next { s with blk := { startedIn .dec s.blk.scratch (dispatched 3 s.blk) with acc := 0 } })

/-- spec/42_calibrator.md R165; spec/44_lifecycle.md R211: MEASURE at its dispatch, whatever the lifecycle state. -/
def Obligations.MeasureAtItsDispatch : Prop :=
  ∀ s : State,
    (intervalBusy Config.params s.blk = true →
      exec .measure s = .next { s with blk := { dispatched 4 s.blk with err := 0x02, done := true, phase := .idle } }) ∧
    (intervalBusy Config.params s.blk = false →
      exec .measure s = .next { s with blk := startedIn .cal emptyScratch (dispatched 4 s.blk) })

/-- spec/41_initiator.md R156; spec/44_lifecycle.md R211: START at its dispatch, whatever the lifecycle state. -/
def Obligations.StartAtItsDispatch : Prop :=
  ∀ s : State,
    (intervalBusy Config.params s.blk = true →
      exec .start s = .next { s with blk := { dispatched 5 s.blk with err := 0x02, done := true, phase := .idle } }) ∧
    (intervalBusy Config.params s.blk = false →
      exec .start s = .next { s with blk := startedIn .dec s.blk.scratch (dispatched 5 s.blk) })

/-! ## The sequencer's phases -/

/-- spec/41_initiator.md R152: a tick of the low hold, and the low hold as a whole: the line is driven low for exactly
START_LOW_US ticks and released at the last, at whose clock the start is recorded. -/
def Obligations.LowHoldAndRelease : Prop :=
  (∀ (p : Params) (lvl : Bool) (b : Block), b.phase = .startLow →
    ((b.cnt + 1).toNat ≠ p.startLowUs → seqStep p lvl b = { b with cnt := b.cnt + 1 }) ∧
    ((b.cnt + 1).toNat = p.startLowUs → b.op = 5 → seqStep p lvl b = { b with
      lineOe := false, lastStartMs := b.nowMs, tsValid := true, err := 0x00, done := true, phase := .idle }) ∧
    ((b.cnt + 1).toNat = p.startLowUs → b.op ≠ 5 → seqStep p lvl b = { b with
      lineOe := false, lastStartMs := b.nowMs, tsValid := true, phase := .wResp, cnt := 0 })) ∧
  (∀ (p : Params) (levels : List Bool) (b : Block), p.Valid → b.phase = .startLow → b.cnt = 0 → b.lineOe = true →
    b.lineOut = false →
    (levels.length < p.startLowUs → (tickRun p levels b).phase = .startLow ∧ (tickRun p levels b).lineOe = true ∧
      (tickRun p levels b).lineOut = false) ∧
    (levels.length = p.startLowUs → (tickRun p levels b).phase = (if b.op = 5 then .idle else .wResp) ∧
      (tickRun p levels b).lineOe = false ∧ (tickRun p levels b).tsValid = true ∧
      (tickRun p levels b).lastStartMs = (tickRun p levels.dropLast b).nowMs))

/-- spec/41_initiator.md R153, R154, R155: one tick of each acknowledgement wait. -/
def Obligations.AcknowledgementWaits : Prop :=
  ∀ (p : Params) (lvl : Bool) (b : Block),
    let d := b.cnt + 1
    let B := if b.mode = .cal then p.calTimeoutUs else p.ackTimeoutUs
    (b.phase = .wResp →
      (lvl = false → seqStep p lvl b = { b with phase := .wAckL, cnt := 0 }) ∧
      (lvl = true → B ≤ d.toNat → seqStep p lvl b = failedAt 1 b) ∧
      (lvl = true → d.toNat < B → seqStep p lvl b = { b with cnt := d })) ∧
    (b.phase = .wAckL →
      (lvl = true → seqStep p lvl b = { b with
        phase := .wAckH, cnt := 0, scratch := if b.mode = .cal then { b.scratch with ackl := d } else b.scratch }) ∧
      (lvl = false → B ≤ d.toNat → seqStep p lvl b = failedAt 1 b) ∧
      (lvl = false → d.toNat < B → seqStep p lvl b = { b with cnt := d })) ∧
    (b.phase = .wAckH →
      (lvl = false → seqStep p lvl b = { b with
        phase := .wLead, cnt := 0, scratch := if b.mode = .cal then { b.scratch with ackh := d } else b.scratch }) ∧
      (lvl = true → B ≤ d.toNat → seqStep p lvl b = failedAt 2 b) ∧
      (lvl = true → d.toNat < B → seqStep p lvl b = { b with cnt := d }))

/-- spec/42_calibrator.md R161: one tick of a lead-in of a calibration. -/
def Obligations.CalibrationLeadIn : Prop :=
  ∀ (p : Params) (lvl : Bool) (b : Block), b.phase = .wLead → b.mode = .cal →
    let d := b.cnt + 1
    (lvl = true → seqStep p lvl b = { b with
      phase := .wHigh, cnt := 0, scratch := if b.bitcnt = 0 then { b.scratch with lead := d } else b.scratch }) ∧
    (lvl = false → p.calTimeoutUs ≤ d.toNat → seqStep p lvl b = failedAt (if b.bitcnt = 0 then 3 else 5) b) ∧
    (lvl = false → d.toNat < p.calTimeoutUs → seqStep p lvl b = { b with cnt := d })

/-- spec/42_calibrator.md R162, R163: one tick of a high phase of a calibration: what it records, and its success for every
code `op` can hold. -/
def Obligations.CalibrationHighPhase : Prop :=
  ∀ (p : Params) (lvl : Bool) (b : Block), b.phase = .wHigh → b.mode = .cal →
    let d := b.cnt + 1
    let one := decide (p.classThreshUs < d.toNat)
    let h0 := if one = false ∧ b.scratch.seen0 = false then d else b.scratch.h0
    let h1 := if one = true ∧ b.scratch.seen1 = false then d else b.scratch.h1
    let sc : Scratch := { b.scratch with h0 := h0, h1 := h1, seen0 := b.scratch.seen0 || !one, seen1 := b.scratch.seen1 || one }
    let counted : Block := { b with scratch := sc, bitcnt := b.bitcnt + 1 }
    let measured : Block := { counted with
      profile := {
        ack80Low := b.scratch.ackl, ack80High := b.scratch.ackh, bitLeadLow := b.scratch.lead
        bitHighZero := h0, bitHighOne := h1 }
      calDone := true }
    let ready : Block := { measured with lstate := .ready, recovering := false }
    let both := sc.seen0 = true ∧ sc.seen1 = true
    (lvl = false → both → b.op = 1 ∨ b.op = 2 → seqStep p lvl b = { ready with err := 0x00, done := true, phase := .idle }) ∧
    (lvl = false → both → b.op = 4 → seqStep p lvl b = { measured with err := 0x00, done := true, phase := .idle }) ∧
    (lvl = false → both → b.op = 3 → intervalBusy p b = true → b.frameValid = true →
      seqStep p lvl b = { ready with cached := true, err := 0x00, done := true, phase := .idle }) ∧
    (lvl = false → both → b.op = 3 → intervalBusy p b = true → b.frameValid = false →
      seqStep p lvl b = { ready with err := 0x02, done := true, phase := .idle }) ∧
    (lvl = false → both → b.op = 3 → intervalBusy p b = false →
      seqStep p lvl b = { startedIn .dec sc ready with acc := 0 }) ∧
    (lvl = false → both → b.op ≠ 1 → b.op ≠ 2 → b.op ≠ 3 → b.op ≠ 4 → seqStep p lvl b = measured) ∧
    (lvl = false → ¬both → (b.bitcnt + 1).toNat = p.calMaxBits → seqStep p lvl b = failedAt 4 counted) ∧
    (lvl = false → ¬both → (b.bitcnt + 1).toNat ≠ p.calMaxBits →
      seqStep p lvl b = { counted with phase := .wLead, cnt := 0 }) ∧
    (lvl = true → p.calTimeoutUs ≤ d.toNat → seqStep p lvl b = failedAt 4 b) ∧
    (lvl = true → d.toNat < p.calTimeoutUs → seqStep p lvl b = { b with cnt := d })

/-- spec/43_decoder.md R181, R190: one tick of a lead-in of a decode. -/
def Obligations.DecodeLeadIn : Prop :=
  ∀ (p : Params) (lvl : Bool) (b : Block), b.phase = .wLead → b.mode = .dec →
    let d := b.cnt + 1
    let B := b.profile.bitLeadLow.toNat + p.leadSlackUs
    (lvl = true → seqStep p lvl b = { b with phase := .settle, cnt := 0 }) ∧
    (lvl = false → B ≤ d.toNat → b.bitcnt = 0 → seqStep p lvl b = { b with err := 0x13, done := true, phase := .idle }) ∧
    (lvl = false → B ≤ d.toNat → b.bitcnt ≠ 0 → seqStep p lvl b = { b with err := 0x15, done := true, phase := .idle }) ∧
    (lvl = false → d.toNat < B → seqStep p lvl b = { b with cnt := d })

/-- spec/43_decoder.md R182, R183: one tick of the settle delay; the sample enters the accumulator at bit 0. -/
def Obligations.DecodeSample : Prop :=
  ∀ (p : Params) (lvl : Bool) (b : Block), b.phase = .settle →
    ((b.cnt + 1).toNat ≠ p.settleUs → seqStep p lvl b = { b with cnt := b.cnt + 1 }) ∧
    ((b.cnt + 1).toNat = p.settleUs → seqStep p lvl b = { b with
      acc := BitVec.ofNat 40 (2 * b.acc.toNat + lvl.toNat), bitcnt := b.bitcnt + 1, phase := .wHigh, cnt := 0 })

/-- spec/43_decoder.md R184, R185, R190: one tick of the rest of a high phase of a decode, and the end of the frame. -/
def Obligations.DecodeHighPhase : Prop :=
  ∀ (p : Params) (lvl : Bool) (b : Block), b.phase = .wHigh → b.mode = .dec →
    let d := b.cnt + 1
    let sum := (b.acc.toNat / 2 ^ 32 + b.acc.toNat / 2 ^ 24 % 256 + b.acc.toNat / 2 ^ 16 % 256 + b.acc.toNat / 2 ^ 8 % 256) % 256
    (lvl = false → b.bitcnt ≠ 40 → seqStep p lvl b = { b with phase := .wLead, cnt := 0 }) ∧
    (lvl = false → b.bitcnt = 40 → sum = b.acc.toNat % 256 → seqStep p lvl b = { b with
      lineOe := true, lineOut := true, csCalc := BitVec.ofNat 8 sum, frame := b.acc, frameValid := true,
      err := 0x00, done := true, phase := .idle }) ∧
    (lvl = false → b.bitcnt = 40 → sum ≠ b.acc.toNat % 256 → seqStep p lvl b = { b with
      lineOe := true, lineOut := true, csCalc := BitVec.ofNat 8 sum, err := 0x03, done := true, phase := .idle }) ∧
    (lvl = true → b.profile.bitHighOne.toNat ≤ d.toNat → seqStep p lvl b = { b with err := 0x14, done := true, phase := .idle }) ∧
    (lvl = true → d.toNat < b.profile.bitHighOne.toNat → seqStep p lvl b = { b with cnt := d })

/-! ## The frame -/

/-- spec/43_decoder.md R183: a sample moves the bits one place up modulo `2^40` and enters at bit 0; after `n` samples from
`acc = 0` the accumulator holds the `n` bits, the first received at bit `n-1`, and zeros above. -/
def Obligations.AccumulatorHoldsReceivedBits : Prop :=
  (∀ (x : Frame) (lvl : Bool), shiftIn x lvl = BitVec.ofNat 40 (2 * x.toNat + lvl.toNat)) ∧
  ∀ bits : List Bool, bits.length ≤ 40 →
    (bits.foldl shiftIn 0).toNat = bitsValue bits ∧ bitsValue bits < 2 ^ bits.length ∧
    ∀ k, (h : k < bits.length) → (bits.foldl shiftIn 0).getLsbD (bits.length - 1 - k) = bits[k]

/-- spec/43_decoder.md R186: the validator is the sum of the four bytes modulo 256, and flipping any one bit of the checksum
byte makes it false. -/
def Obligations.ChecksumValidator : Prop :=
  ∀ x : Frame,
    (checksumOk x = true ↔
      (x.toNat / 2 ^ 32 + x.toNat / 2 ^ 24 % 256 + x.toNat / 2 ^ 16 % 256 + x.toNat / 2 ^ 8 % 256) % 256 = x.toNat % 256) ∧
    (checksumOk x = true → ∀ i, i < 8 → checksumOk (x ^^^ (1#40 <<< i)) = false)

/-- spec/43_decoder.md R189: the temperature is the magnitude with the sign of bit 15, and the field 0x8000 gives 0. -/
def Obligations.TemperatureConversion : Prop :=
  (∀ f : BitVec 16, (tempTenths f).toInt = if 0x8000 ≤ f.toNat then -((f.toNat - 0x8000 : Nat) : Int) else (f.toNat : Int)) ∧
  tempTenths 0x8000 = 0

/-! ## What changes when -/

/-- spec/70_reset_and_hazards.md R311; spec/20_memory.md R87: a host access completes, and changes of the block only the
command latch and the two error flags. -/
def Obligations.HostAccessLeavesTheSequencer : Prop :=
  ∀ (s : State) (r : BusReq), ∃ t : State, exec (decodeBus r) s = .next t ∧
    t.blk = { s.blk with pendValid := t.blk.pendValid, pendCmd := t.blk.pendCmd, ovr := t.blk.ovr, ill := t.blk.ill } ∧
    t.script = s.script ∧ t.lineIn = s.lineIn ∧ t.tickNo = s.tickNo ∧
    (r.we = false → t.blk = s.blk) ∧ (r.we = true → t.rdLog = s.rdLog)

/-- spec/20_memory.md R91; spec/60_exceptions.md R270: with no command pending or running, ticks change nothing but the
time, whatever the line does. -/
def Obligations.IdleTicksChangeOnlyTime : Prop :=
  ∀ (p : Params) (levels : List Bool) (b : Block), b.phase = .idle → b.pendValid = false →
    tickRun p levels b = { b with
      preCnt := (tickRun p levels b).preCnt, usCnt := (tickRun p levels b).usCnt, nowMs := (tickRun p levels b).nowMs }

/-- spec/10_state.md R49: the cached frame is written only by a decode whose checksum validates, and made invalid only by a
RECOVER that finds `recovering = 0` (reset apart). -/
def Obligations.CachedFrameChanges : Prop :=
  ∀ s t : State, step s = .next t → resetNext s = false →
    (t.blk.frame ≠ s.blk.frame ∨ (s.blk.frameValid = false ∧ t.blk.frameValid = true) →
      s.blk.phase = .wHigh ∧ s.blk.mode = .dec ∧ s.blk.bitcnt = 40 ∧ checksumOk s.blk.acc = true ∧
      t.blk.frame = s.blk.acc ∧ t.blk.frameValid = true ∧ t.blk.err = 0x00) ∧
    (s.blk.frameValid = true → t.blk.frameValid = false →
      s.blk.phase = .idle ∧ s.blk.pendValid = true ∧ s.blk.pendCmd = 2 ∧ s.blk.recovering = false)

/-- spec/10_state.md R46; spec/42_calibrator.md R163: the profile is written only by a calibration that has seen both
classes, all five durations from its scratch (reset apart). -/
def Obligations.ProfileChanges : Prop :=
  ∀ s t : State, step s = .next t → resetNext s = false → t.blk.profile ≠ s.blk.profile →
    s.blk.phase = .wHigh ∧ s.blk.mode = .cal ∧ t.blk.calDone = true ∧
    t.blk.scratch.seen0 = true ∧ t.blk.scratch.seen1 = true ∧
    t.blk.profile = {
      ack80Low := s.blk.scratch.ackl, ack80High := s.blk.scratch.ackh, bitLeadLow := s.blk.scratch.lead
      bitHighZero := t.blk.scratch.h0, bitHighOne := t.blk.scratch.h1 }

/-- spec/10_state.md R43: `cal_done` is set only by a successful calibration and cleared only by reset. -/
def Obligations.CalDoneIsSetOnceByACalibration : Prop :=
  ∀ s t : State, step s = .next t → resetNext s = false →
    (s.blk.calDone = true → t.blk.calDone = true) ∧
    (s.blk.calDone = false → t.blk.calDone = true →
      s.blk.phase = .wHigh ∧ s.blk.mode = .cal ∧ t.blk.scratch.seen0 = true ∧ t.blk.scratch.seen1 = true)

/-- spec/44_lifecycle.md R219: POWERED_ON is reached only by reset; READY is entered by a successful calibration and left
only by a failed one of BEGIN, RECOVER or READ, or by RECOVER. -/
def Obligations.LifecycleStateChanges : Prop :=
  ∀ s t : State, step s = .next t → resetNext s = false →
    (t.blk.lstate = .poweredOn → s.blk.lstate = .poweredOn) ∧
    (s.blk.lstate ≠ .ready → t.blk.lstate = .ready →
      s.blk.phase = .wHigh ∧ s.blk.mode = .cal ∧ t.blk.calDone = true ∧ (s.blk.op = 1 ∨ s.blk.op = 2 ∨ s.blk.op = 3)) ∧
    (s.blk.lstate = .ready → t.blk.lstate ≠ .ready → t.blk.lstate = .uninitialized ∧
      ((s.blk.mode = .cal ∧ sampling s.blk.phase = true ∧ (s.blk.op = 1 ∨ s.blk.op = 2 ∨ s.blk.op = 3) ∧
          0x21 ≤ t.blk.err.toNat ∧ t.blk.err.toNat ≤ 0x25) ∨
        (s.blk.phase = .idle ∧ s.blk.pendValid = true ∧ s.blk.pendCmd = 2 ∧ s.blk.recovering = false)))

/-- spec/10_state.md R42: `recovering` is set by RECOVER when clear, and cleared by a successful calibration of BEGIN,
RECOVER or READ and by a failed calibration of RECOVER (reset apart). -/
def Obligations.RecoveringFlagChanges : Prop :=
  ∀ s t : State, step s = .next t → resetNext s = false →
    (s.blk.recovering = false → t.blk.recovering = true →
      s.blk.phase = .idle ∧ s.blk.pendValid = true ∧ s.blk.pendCmd = 2 ∧ t.blk.err = 0x01) ∧
    (s.blk.recovering = true → t.blk.recovering = false → s.blk.mode = .cal ∧ sampling s.blk.phase = true ∧
      ((t.blk.lstate = .ready ∧ (s.blk.op = 1 ∨ s.blk.op = 2 ∨ s.blk.op = 3)) ∨
        (t.blk.lstate = .uninitialized ∧ s.blk.op = 2 ∧ 0x21 ≤ t.blk.err.toNat ∧ t.blk.err.toNat ≤ 0x25)))

/-- spec/60_exceptions.md R276: ILL and OVR are set only by a write to CMD, and cleared only by a write of 1 to their bits of
STATUS (reset apart). -/
def Obligations.HostErrorFlagsAreSticky : Prop :=
  ∀ s t : State, step s = .next t → resetNext s = false →
    (s.blk.ill ≠ t.blk.ill ∨ s.blk.ovr ≠ t.blk.ovr → ∃ r rest, s.script = .access r :: rest ∧ r.we = true ∧
      ((r.addr = 0 ∧ (s.blk.ill = true → t.blk.ill = true) ∧ (s.blk.ovr = true → t.blk.ovr = true)) ∨
        (r.addr = 1 ∧ (t.blk.ill = true → s.blk.ill = true) ∧ (t.blk.ovr = true → s.blk.ovr = true) ∧
          (s.blk.ill ≠ t.blk.ill → r.wdata.getLsbD 13 = true) ∧ (s.blk.ovr ≠ t.blk.ovr → r.wdata.getLsbD 12 = true))))

/-- spec/41_initiator.md R151; spec/70_reset_and_hazards.md R308: no start signal begins while `INTERVAL_BUSY = 1`. -/
def Obligations.NoStartSignalInsideTheInterval : Prop :=
  ∀ s t : State, step s = .next t → s.blk.phase ≠ .startLow → t.blk.phase = .startLow →
    intervalBusy Config.params s.blk = false ∧ t.blk.lineOe = true ∧ t.blk.lineOut = false ∧ t.blk.cnt = 0 ∧ t.blk.bitcnt = 0

/-- spec/10_state.md R51: the drive of the line is written only by a start signal, its release, and the end of a decode
(reset apart). -/
def Obligations.LineDriveChanges : Prop :=
  ∀ s t : State, step s = .next t → resetNext s = false →
    (s.blk.lineOe ≠ t.blk.lineOe ∨ s.blk.lineOut ≠ t.blk.lineOut) →
    (t.blk.phase = .startLow ∧ s.blk.phase ≠ .startLow ∧ lineDrive t.blk = some false) ∨
    (s.blk.phase = .startLow ∧ t.blk.phase ≠ .startLow ∧ lineDrive t.blk = none) ∨
    (s.blk.phase = .wHigh ∧ s.blk.mode = .dec ∧ s.blk.bitcnt = 40 ∧ lineDrive t.blk = some true)

/-- spec/42_calibrator.md R167: a tick of a calibration writes neither `frame`, `frame_valid` nor `cs_calc`, and not `acc`
either unless it starts the decode of a READ. The invariant rules out a calibration in `SETTLE`, which no run reaches. -/
def Obligations.CalibrationLeavesTheFrame : Prop :=
  ∀ s t : State, BlockInv Config.params s.blk → step s = .next t → resetNext s = false → s.blk.phase ≠ .idle →
    s.blk.mode = .cal →
    t.blk.frame = s.blk.frame ∧ t.blk.frameValid = s.blk.frameValid ∧ t.blk.csCalc = s.blk.csCalc ∧
    (t.blk.acc = s.blk.acc ∨ (s.blk.op = 3 ∧ t.blk.mode = .dec ∧ t.blk.phase = .startLow ∧ t.blk.acc = 0))

/-- spec/44_lifecycle.md R212; spec/60_exceptions.md R270, R283: a result is written, and a running command ends, only with
`done = 1`, the sequencer idle and a code of R105 (reset apart). -/
def Obligations.CommandsEndThroughComplete : Prop :=
  ∀ s t : State, step s = .next t → resetNext s = false →
    (t.blk.err ≠ s.blk.err ∨ (s.blk.phase ≠ .idle ∧ t.blk.phase = .idle) ∨ (s.blk.done = false ∧ t.blk.done = true)) →
    t.blk.done = true ∧ t.blk.phase = .idle ∧ legalCode t.blk.err = true

/-! ## Reset and invariants -/

/-- spec/10_state.md R54: the reset value of every element, and every register reads 0 after reset. -/
def Obligations.ResetValues : Prop :=
  State.reset.blk = {
    phase := .idle, mode := .dec, op := 0, cnt := 0, bitcnt := 0, pendValid := false, pendCmd := 0, done := false, err := 0,
    cached := false, ovr := false, ill := false, lstate := .poweredOn, recovering := false, calDone := false,
    tsValid := false, lastStartMs := 0, preCnt := 0, usCnt := 0, nowMs := 0,
    profile := { ack80Low := 0, ack80High := 0, bitLeadLow := 0, bitHighZero := 0, bitHighOne := 0 },
    scratch := { ackl := 0, ackh := 0, lead := 0, h0 := 0, h1 := 0, seen0 := false, seen1 := false },
    acc := 0, frame := 0, frameValid := false, csCalc := 0, lineOe := false, lineOut := false } ∧
  ∀ a : BitVec 4, regRead Config.params a State.reset.blk = 0x00000000

/-- spec/70_reset_and_hazards.md R302; spec/60_exceptions.md R282: a reset abandons whatever runs or is pending and releases
the line at once. -/
def Obligations.ResetAbandonsEverything : Prop :=
  ∀ (s : State) (rest : List HostEvent), s.script = .rst :: rest →
    step s = .next { s with blk := State.reset.blk, script := rest } ∧
    State.reset.blk.pendValid = false ∧ State.reset.blk.phase = .idle ∧ lineDrive State.reset.blk = none

/-- The invariant holds of the block after reset. -/
def Obligations.ResetMeetsTheInvariant : Prop :=
  BlockInv Config.params State.reset.blk

/-- Every step from a state with the invariant leads to a state with the invariant: among others the profile's bounds
(spec/10_state.md R72), the released line while it is sampled (spec/40_pulse_width.md R131), the counters within their
bounds, the result codes of R105 and a cached frame whose checksum is right. -/
def Obligations.EveryStepKeepsTheInvariant : Prop :=
  ∀ s t : State, BlockInv Config.params s.blk → step s = .next t → BlockInv Config.params t.blk

/-- spec/10_state.md R72; spec/42_calibrator.md R166: on every run, of any length, from a state with the invariant (reset
is one), whatever the host does and whatever the line does, the profile of a calibrated block keeps its bounds. -/
def Obligations.ProfileBoundsOnEveryRun : Prop :=
  ∀ (s : State) (n : Nat) (t : State), BlockInv Config.params s.blk →
    Host.Core.run Sys2Proof.core n s = .next t → t.blk.calDone = true →
    t.blk.profile.bitHighZero.toNat ≤ 40 ∧ 40 < t.blk.profile.bitHighOne.toNat ∧ t.blk.profile.bitHighOne.toNat ≤ 200 ∧
    1 ≤ t.blk.profile.bitLeadLow.toNat ∧ t.blk.profile.bitLeadLow.toNat ≤ 200 ∧
    1 ≤ t.blk.profile.ack80Low.toNat ∧ t.blk.profile.ack80Low.toNat ≤ 200 ∧
    1 ≤ t.blk.profile.ack80High.toNat ∧ t.blk.profile.ack80High.toNat ≤ 200

/-! ## Whole commands -/

/-- spec/44_lifecycle.md R220; spec/70_reset_and_hazards.md R316: a pending command is completed within its worst case after
its dispatch tick, whatever the line does. -/
def Obligations.EveryCommandCompletesInTime : Prop :=
  ∀ (p : Params) (b : Block) (levels : List Bool), p.Valid → BlockInv p b → b.pendValid = true →
    commandBound p b + 1 ≤ levels.length →
    (tickRun p levels b).phase = .idle ∧ (tickRun p levels b).pendValid = false ∧ (tickRun p levels b).done = true

/-- spec/41_initiator.md R153 to R155; spec/43_decoder.md R181 to R185: a READ's decode, from the release of its start
signal, receives the frame that a sensor transmits within the calibrated bounds, and ends with the checksum's verdict. -/
def Obligations.DecodeReceivesTheTransmission : Prop :=
  ∀ (p : Params) (b : Block) (resp ackl ackh tail : Nat) (bits : List LineBit),
    p.Valid → b.phase = .wResp → b.mode = .dec → b.op = 3 → b.cnt = 0 → b.bitcnt = 0 → b.acc = 0 → b.pendValid = false →
    1 ≤ resp → resp ≤ p.ackTimeoutUs → 1 ≤ ackl → ackl ≤ p.ackTimeoutUs → 1 ≤ ackh → ackh ≤ p.ackTimeoutUs →
    b.profile.bitLeadLow.toNat + p.leadSlackUs ≤ 65535 →
    bits.length = 40 → (∀ x ∈ bits, BitDecodable p b.profile x) → p.settleUs + 1 ≤ tail →
    let x : Frame := BitVec.ofNat 40 (bitsValue (bits.map LineBit.value))
    let e := tickRun p (transmission resp ackl ackh bits ++ List.replicate tail false) b
    e.phase = .idle ∧ e.done = true ∧ e.bitcnt = 40 ∧ e.acc = x ∧ e.csCalc = checksum x ∧ lineDrive e = some true ∧
    (checksumOk x = true → e.err = 0x00 ∧ e.frame = x ∧ e.frameValid = true) ∧
    (checksumOk x = false → e.err = 0x03 ∧ e.frame = b.frame ∧ e.frameValid = b.frameValid)

/-- spec/41_initiator.md R153 to R155; spec/42_calibrator.md R161 to R163: a calibration, from the release of its start
signal, records the durations the line shows: the acknowledgement, the first lead-in, and the first high phase of each
class, of which the last pulse brings the second. -/
def Obligations.CalibrationMeasuresTheTransmission : Prop :=
  ∀ (p : Params) (b : Block) (resp ackl ackh : Nat) (first last : LineBit) (between : List LineBit),
    p.Valid → b.phase = .wResp → b.mode = .cal → (b.op = 1 ∨ b.op = 2 ∨ b.op = 4) → b.cnt = 0 → b.bitcnt = 0 →
    b.scratch = emptyScratch → b.pendValid = false →
    1 ≤ resp → resp ≤ p.calTimeoutUs → 1 ≤ ackl → ackl ≤ p.calTimeoutUs → 1 ≤ ackh → ackh ≤ p.calTimeoutUs →
    (∀ x ∈ first :: between ++ [last], PulseMeasurable p x) →
    (∀ x ∈ between, (p.classThreshUs < x.high ↔ p.classThreshUs < first.high)) →
    (p.classThreshUs < last.high ↔ ¬p.classThreshUs < first.high) →
    between.length + 2 ≤ p.calMaxBits →
    let e := tickRun p (transmission resp ackl ackh (first :: between ++ [last]) ++ [false]) b
    e.phase = .idle ∧ e.done = true ∧ e.err = 0x00 ∧ e.calDone = true ∧ e.bitcnt.toNat = between.length + 2 ∧
    e.profile = {
      ack80Low := BitVec.ofNat 16 ackl, ack80High := BitVec.ofNat 16 ackh, bitLeadLow := BitVec.ofNat 16 first.lead,
      bitHighZero := BitVec.ofNat 16 (if p.classThreshUs < first.high then last.high else first.high),
      bitHighOne := BitVec.ofNat 16 (if p.classThreshUs < first.high then first.high else last.high) } ∧
    (b.op = 4 → e.lstate = b.lstate ∧ e.recovering = b.recovering) ∧
    (b.op ≠ 4 → e.lstate = .ready ∧ e.recovering = false) ∧
    e.acc = b.acc ∧ e.frame = b.frame ∧ lineDrive e = lineDrive b

/-- spec/60_exceptions.md R270; spec/93_implementation_defined.md I8: nothing stops the block. -/
def Obligations.TheBlockNeverStops : Prop :=
  (∀ s : State, ∃ t, step s = .next t) ∧ ∀ (i : Instr) (s : State), ∃ t, exec i s = .next t

/-- spec/45_host_interface.md R261; spec/70_reset_and_hazards.md R306: GET_RAW is two reads with any number of ticks between
them (log 10), and its result is RAW_LO of the block before those ticks and RAW_HI of the block after them; with no tick
between them, or with nothing pending or running, it is the accumulator. -/
def Obligations.RawFrameReadByTheHost : Prop :=
  ∀ (s : State) (gap : Nat) (rest : List HostEvent), s.script = hostGetRaw gap ++ rest → ∃ t u v : State,
    step s = .next t ∧ Host.Core.run Sys2Proof.core gap t = .next u ∧ step u = .next v ∧
    t.blk = s.blk ∧ v.blk = u.blk ∧ v.script = rest ∧
    getRawResult v.rdLog = some (BitVec.ofNat 64 (u.blk.acc.toNat / 2 ^ 32 * 2 ^ 32 + s.blk.acc.toNat % 2 ^ 32)) ∧
    (gap = 0 ∨ (s.blk.phase = .idle ∧ s.blk.pendValid = false) →
      getRawResult v.rdLog = some (BitVec.ofNat 64 s.blk.acc.toNat))

/-- spec/40_pulse_width.md R132: the pad has the level the block drives, or high when neither side drives, or low when the
sensor pulls and the block does not drive; where the block drives high against the sensor the level is free (log 17). -/
def Obligations.PadLevelOfTheLineDrive : Prop :=
  ∀ (b : Block) (tick : Nat),
    (b.lineOe = false → ∀ pulls, padLevel b pulls tick = !pulls) ∧
    (b.lineOe = true → b.lineOut = false → ∀ pulls, padLevel b pulls tick = false) ∧
    (b.lineOe = true → b.lineOut = true → padLevel b false tick = true ∧
      padLevel b true tick = Config.contentionLevel tick)

/-- spec/45_host_interface.md R259, R260, R265: SENTINEL_HUM is `-1.0` and SENTINEL_TEMP may be each value below `-3276.7` and
no other (log 14); no humidity and no temperature the block delivers reads as its sentinel; the accessors answer the reading
on OK and the sentinel on every other code. -/
def Obligations.SentinelsAreNoReadings : Prop :=
  sentinelHum = 0xBF800000 ∧
  (∀ x : BitVec 32, sentinelTempLegal x = true ↔ ∃ depth, sentinelTempAt depth = x) ∧
  sentinelTempLegal sentinelTemp = true ∧
  (∀ n : BitVec 16, humF32 n ≠ sentinelHum) ∧
  (∀ field : BitVec 16, tempF32 (tempTenths field) ≠ sentinelTemp) ∧
  ∀ r : ReadResult,
    (r.errorCode = 0x00 → getHumidityResult r = humF32 r.humidity ∧
      getTemperatureResult r = tempF32 (r.temperature.extractLsb' 0 16)) ∧
    (r.errorCode ≠ 0x00 → getHumidityResult r = sentinelHum ∧ getTemperatureResult r = sentinelTemp)
end

