-- ==== Sys2Proof/Laws/State.lean ====
section
/-! SUPPORT. One lemma per field per update of the block and of the state, true by rfl. -/
namespace Sys2Proof.Machine

@[simp] theorem complete_phase (c : ResultCode) (w : Block) : (complete c w).phase = .idle := rfl
@[simp] theorem complete_mode (c : ResultCode) (w : Block) : (complete c w).mode = w.mode := rfl
@[simp] theorem complete_op (c : ResultCode) (w : Block) : (complete c w).op = w.op := rfl
@[simp] theorem complete_cnt (c : ResultCode) (w : Block) : (complete c w).cnt = w.cnt := rfl
@[simp] theorem complete_bitcnt (c : ResultCode) (w : Block) : (complete c w).bitcnt = w.bitcnt := rfl
@[simp] theorem complete_pendValid (c : ResultCode) (w : Block) : (complete c w).pendValid = w.pendValid := rfl
@[simp] theorem complete_pendCmd (c : ResultCode) (w : Block) : (complete c w).pendCmd = w.pendCmd := rfl
@[simp] theorem complete_done (c : ResultCode) (w : Block) : (complete c w).done = true := rfl
@[simp] theorem complete_err (c : ResultCode) (w : Block) : (complete c w).err = resultCode c := rfl
@[simp] theorem complete_cached (c : ResultCode) (w : Block) : (complete c w).cached = w.cached := rfl
@[simp] theorem complete_ovr (c : ResultCode) (w : Block) : (complete c w).ovr = w.ovr := rfl
@[simp] theorem complete_ill (c : ResultCode) (w : Block) : (complete c w).ill = w.ill := rfl
@[simp] theorem complete_lstate (c : ResultCode) (w : Block) : (complete c w).lstate = w.lstate := rfl
@[simp] theorem complete_recovering (c : ResultCode) (w : Block) : (complete c w).recovering = w.recovering := rfl
@[simp] theorem complete_calDone (c : ResultCode) (w : Block) : (complete c w).calDone = w.calDone := rfl
@[simp] theorem complete_tsValid (c : ResultCode) (w : Block) : (complete c w).tsValid = w.tsValid := rfl
@[simp] theorem complete_lastStartMs (c : ResultCode) (w : Block) : (complete c w).lastStartMs = w.lastStartMs := rfl
@[simp] theorem complete_preCnt (c : ResultCode) (w : Block) : (complete c w).preCnt = w.preCnt := rfl
@[simp] theorem complete_usCnt (c : ResultCode) (w : Block) : (complete c w).usCnt = w.usCnt := rfl
@[simp] theorem complete_nowMs (c : ResultCode) (w : Block) : (complete c w).nowMs = w.nowMs := rfl
@[simp] theorem complete_profile (c : ResultCode) (w : Block) : (complete c w).profile = w.profile := rfl
@[simp] theorem complete_scratch (c : ResultCode) (w : Block) : (complete c w).scratch = w.scratch := rfl
@[simp] theorem complete_acc (c : ResultCode) (w : Block) : (complete c w).acc = w.acc := rfl
@[simp] theorem complete_frame (c : ResultCode) (w : Block) : (complete c w).frame = w.frame := rfl
@[simp] theorem complete_frameValid (c : ResultCode) (w : Block) : (complete c w).frameValid = w.frameValid := rfl
@[simp] theorem complete_csCalc (c : ResultCode) (w : Block) : (complete c w).csCalc = w.csCalc := rfl
@[simp] theorem complete_lineOe (c : ResultCode) (w : Block) : (complete c w).lineOe = w.lineOe := rfl
@[simp] theorem complete_lineOut (c : ResultCode) (w : Block) : (complete c w).lineOut = w.lineOut := rfl

@[simp] theorem dispatchWrites_phase (k : BitVec 3) (w : Block) : (dispatchWrites k w).phase = w.phase := rfl
@[simp] theorem dispatchWrites_mode (k : BitVec 3) (w : Block) : (dispatchWrites k w).mode = w.mode := rfl
@[simp] theorem dispatchWrites_op (k : BitVec 3) (w : Block) : (dispatchWrites k w).op = k := rfl
@[simp] theorem dispatchWrites_cnt (k : BitVec 3) (w : Block) : (dispatchWrites k w).cnt = w.cnt := rfl
@[simp] theorem dispatchWrites_bitcnt (k : BitVec 3) (w : Block) : (dispatchWrites k w).bitcnt = w.bitcnt := rfl
@[simp] theorem dispatchWrites_pendValid (k : BitVec 3) (w : Block) : (dispatchWrites k w).pendValid = false := rfl
@[simp] theorem dispatchWrites_pendCmd (k : BitVec 3) (w : Block) : (dispatchWrites k w).pendCmd = w.pendCmd := rfl
@[simp] theorem dispatchWrites_done (k : BitVec 3) (w : Block) : (dispatchWrites k w).done = false := rfl
@[simp] theorem dispatchWrites_err (k : BitVec 3) (w : Block) : (dispatchWrites k w).err = w.err := rfl
@[simp] theorem dispatchWrites_cached (k : BitVec 3) (w : Block) : (dispatchWrites k w).cached = false := rfl
@[simp] theorem dispatchWrites_ovr (k : BitVec 3) (w : Block) : (dispatchWrites k w).ovr = w.ovr := rfl
@[simp] theorem dispatchWrites_ill (k : BitVec 3) (w : Block) : (dispatchWrites k w).ill = w.ill := rfl
@[simp] theorem dispatchWrites_lstate (k : BitVec 3) (w : Block) : (dispatchWrites k w).lstate = w.lstate := rfl
@[simp] theorem dispatchWrites_recovering (k : BitVec 3) (w : Block) : (dispatchWrites k w).recovering = w.recovering := rfl
@[simp] theorem dispatchWrites_calDone (k : BitVec 3) (w : Block) : (dispatchWrites k w).calDone = w.calDone := rfl
@[simp] theorem dispatchWrites_tsValid (k : BitVec 3) (w : Block) : (dispatchWrites k w).tsValid = w.tsValid := rfl
@[simp] theorem dispatchWrites_lastStartMs (k : BitVec 3) (w : Block) : (dispatchWrites k w).lastStartMs = w.lastStartMs := rfl
@[simp] theorem dispatchWrites_preCnt (k : BitVec 3) (w : Block) : (dispatchWrites k w).preCnt = w.preCnt := rfl
@[simp] theorem dispatchWrites_usCnt (k : BitVec 3) (w : Block) : (dispatchWrites k w).usCnt = w.usCnt := rfl
@[simp] theorem dispatchWrites_nowMs (k : BitVec 3) (w : Block) : (dispatchWrites k w).nowMs = w.nowMs := rfl
@[simp] theorem dispatchWrites_profile (k : BitVec 3) (w : Block) : (dispatchWrites k w).profile = w.profile := rfl
@[simp] theorem dispatchWrites_scratch (k : BitVec 3) (w : Block) : (dispatchWrites k w).scratch = w.scratch := rfl
@[simp] theorem dispatchWrites_acc (k : BitVec 3) (w : Block) : (dispatchWrites k w).acc = w.acc := rfl
@[simp] theorem dispatchWrites_frame (k : BitVec 3) (w : Block) : (dispatchWrites k w).frame = w.frame := rfl
@[simp] theorem dispatchWrites_frameValid (k : BitVec 3) (w : Block) : (dispatchWrites k w).frameValid = w.frameValid := rfl
@[simp] theorem dispatchWrites_csCalc (k : BitVec 3) (w : Block) : (dispatchWrites k w).csCalc = w.csCalc := rfl
@[simp] theorem dispatchWrites_lineOe (k : BitVec 3) (w : Block) : (dispatchWrites k w).lineOe = w.lineOe := rfl
@[simp] theorem dispatchWrites_lineOut (k : BitVec 3) (w : Block) : (dispatchWrites k w).lineOut = w.lineOut := rfl

@[simp] theorem latchCommand_phase (k : BitVec 3) (w : Block) : (latchCommand k w).phase = w.phase := rfl
@[simp] theorem latchCommand_mode (k : BitVec 3) (w : Block) : (latchCommand k w).mode = w.mode := rfl
@[simp] theorem latchCommand_op (k : BitVec 3) (w : Block) : (latchCommand k w).op = w.op := rfl
@[simp] theorem latchCommand_cnt (k : BitVec 3) (w : Block) : (latchCommand k w).cnt = w.cnt := rfl
@[simp] theorem latchCommand_bitcnt (k : BitVec 3) (w : Block) : (latchCommand k w).bitcnt = w.bitcnt := rfl
@[simp] theorem latchCommand_pendValid (k : BitVec 3) (w : Block) : (latchCommand k w).pendValid = true := rfl
@[simp] theorem latchCommand_pendCmd (k : BitVec 3) (w : Block) : (latchCommand k w).pendCmd = k := rfl
@[simp] theorem latchCommand_done (k : BitVec 3) (w : Block) : (latchCommand k w).done = w.done := rfl
@[simp] theorem latchCommand_err (k : BitVec 3) (w : Block) : (latchCommand k w).err = w.err := rfl
@[simp] theorem latchCommand_cached (k : BitVec 3) (w : Block) : (latchCommand k w).cached = w.cached := rfl
@[simp] theorem latchCommand_ovr (k : BitVec 3) (w : Block) : (latchCommand k w).ovr = w.ovr := rfl
@[simp] theorem latchCommand_ill (k : BitVec 3) (w : Block) : (latchCommand k w).ill = w.ill := rfl
@[simp] theorem latchCommand_lstate (k : BitVec 3) (w : Block) : (latchCommand k w).lstate = w.lstate := rfl
@[simp] theorem latchCommand_recovering (k : BitVec 3) (w : Block) : (latchCommand k w).recovering = w.recovering := rfl
@[simp] theorem latchCommand_calDone (k : BitVec 3) (w : Block) : (latchCommand k w).calDone = w.calDone := rfl
@[simp] theorem latchCommand_tsValid (k : BitVec 3) (w : Block) : (latchCommand k w).tsValid = w.tsValid := rfl
@[simp] theorem latchCommand_lastStartMs (k : BitVec 3) (w : Block) : (latchCommand k w).lastStartMs = w.lastStartMs := rfl
@[simp] theorem latchCommand_preCnt (k : BitVec 3) (w : Block) : (latchCommand k w).preCnt = w.preCnt := rfl
@[simp] theorem latchCommand_usCnt (k : BitVec 3) (w : Block) : (latchCommand k w).usCnt = w.usCnt := rfl
@[simp] theorem latchCommand_nowMs (k : BitVec 3) (w : Block) : (latchCommand k w).nowMs = w.nowMs := rfl
@[simp] theorem latchCommand_profile (k : BitVec 3) (w : Block) : (latchCommand k w).profile = w.profile := rfl
@[simp] theorem latchCommand_scratch (k : BitVec 3) (w : Block) : (latchCommand k w).scratch = w.scratch := rfl
@[simp] theorem latchCommand_acc (k : BitVec 3) (w : Block) : (latchCommand k w).acc = w.acc := rfl
@[simp] theorem latchCommand_frame (k : BitVec 3) (w : Block) : (latchCommand k w).frame = w.frame := rfl
@[simp] theorem latchCommand_frameValid (k : BitVec 3) (w : Block) : (latchCommand k w).frameValid = w.frameValid := rfl
@[simp] theorem latchCommand_csCalc (k : BitVec 3) (w : Block) : (latchCommand k w).csCalc = w.csCalc := rfl
@[simp] theorem latchCommand_lineOe (k : BitVec 3) (w : Block) : (latchCommand k w).lineOe = w.lineOe := rfl
@[simp] theorem latchCommand_lineOut (k : BitVec 3) (w : Block) : (latchCommand k w).lineOut = w.lineOut := rfl

@[simp] theorem markIllegal_phase (w : Block) : (markIllegal w).phase = w.phase := rfl
@[simp] theorem markIllegal_mode (w : Block) : (markIllegal w).mode = w.mode := rfl
@[simp] theorem markIllegal_op (w : Block) : (markIllegal w).op = w.op := rfl
@[simp] theorem markIllegal_cnt (w : Block) : (markIllegal w).cnt = w.cnt := rfl
@[simp] theorem markIllegal_bitcnt (w : Block) : (markIllegal w).bitcnt = w.bitcnt := rfl
@[simp] theorem markIllegal_pendValid (w : Block) : (markIllegal w).pendValid = w.pendValid := rfl
@[simp] theorem markIllegal_pendCmd (w : Block) : (markIllegal w).pendCmd = w.pendCmd := rfl
@[simp] theorem markIllegal_done (w : Block) : (markIllegal w).done = w.done := rfl
@[simp] theorem markIllegal_err (w : Block) : (markIllegal w).err = w.err := rfl
@[simp] theorem markIllegal_cached (w : Block) : (markIllegal w).cached = w.cached := rfl
@[simp] theorem markIllegal_ovr (w : Block) : (markIllegal w).ovr = w.ovr := rfl
@[simp] theorem markIllegal_ill (w : Block) : (markIllegal w).ill = true := rfl
@[simp] theorem markIllegal_lstate (w : Block) : (markIllegal w).lstate = w.lstate := rfl
@[simp] theorem markIllegal_recovering (w : Block) : (markIllegal w).recovering = w.recovering := rfl
@[simp] theorem markIllegal_calDone (w : Block) : (markIllegal w).calDone = w.calDone := rfl
@[simp] theorem markIllegal_tsValid (w : Block) : (markIllegal w).tsValid = w.tsValid := rfl
@[simp] theorem markIllegal_lastStartMs (w : Block) : (markIllegal w).lastStartMs = w.lastStartMs := rfl
@[simp] theorem markIllegal_preCnt (w : Block) : (markIllegal w).preCnt = w.preCnt := rfl
@[simp] theorem markIllegal_usCnt (w : Block) : (markIllegal w).usCnt = w.usCnt := rfl
@[simp] theorem markIllegal_nowMs (w : Block) : (markIllegal w).nowMs = w.nowMs := rfl
@[simp] theorem markIllegal_profile (w : Block) : (markIllegal w).profile = w.profile := rfl
@[simp] theorem markIllegal_scratch (w : Block) : (markIllegal w).scratch = w.scratch := rfl
@[simp] theorem markIllegal_acc (w : Block) : (markIllegal w).acc = w.acc := rfl
@[simp] theorem markIllegal_frame (w : Block) : (markIllegal w).frame = w.frame := rfl
@[simp] theorem markIllegal_frameValid (w : Block) : (markIllegal w).frameValid = w.frameValid := rfl
@[simp] theorem markIllegal_csCalc (w : Block) : (markIllegal w).csCalc = w.csCalc := rfl
@[simp] theorem markIllegal_lineOe (w : Block) : (markIllegal w).lineOe = w.lineOe := rfl
@[simp] theorem markIllegal_lineOut (w : Block) : (markIllegal w).lineOut = w.lineOut := rfl

@[simp] theorem markOverrun_phase (w : Block) : (markOverrun w).phase = w.phase := rfl
@[simp] theorem markOverrun_mode (w : Block) : (markOverrun w).mode = w.mode := rfl
@[simp] theorem markOverrun_op (w : Block) : (markOverrun w).op = w.op := rfl
@[simp] theorem markOverrun_cnt (w : Block) : (markOverrun w).cnt = w.cnt := rfl
@[simp] theorem markOverrun_bitcnt (w : Block) : (markOverrun w).bitcnt = w.bitcnt := rfl
@[simp] theorem markOverrun_pendValid (w : Block) : (markOverrun w).pendValid = w.pendValid := rfl
@[simp] theorem markOverrun_pendCmd (w : Block) : (markOverrun w).pendCmd = w.pendCmd := rfl
@[simp] theorem markOverrun_done (w : Block) : (markOverrun w).done = w.done := rfl
@[simp] theorem markOverrun_err (w : Block) : (markOverrun w).err = w.err := rfl
@[simp] theorem markOverrun_cached (w : Block) : (markOverrun w).cached = w.cached := rfl
@[simp] theorem markOverrun_ovr (w : Block) : (markOverrun w).ovr = true := rfl
@[simp] theorem markOverrun_ill (w : Block) : (markOverrun w).ill = w.ill := rfl
@[simp] theorem markOverrun_lstate (w : Block) : (markOverrun w).lstate = w.lstate := rfl
@[simp] theorem markOverrun_recovering (w : Block) : (markOverrun w).recovering = w.recovering := rfl
@[simp] theorem markOverrun_calDone (w : Block) : (markOverrun w).calDone = w.calDone := rfl
@[simp] theorem markOverrun_tsValid (w : Block) : (markOverrun w).tsValid = w.tsValid := rfl
@[simp] theorem markOverrun_lastStartMs (w : Block) : (markOverrun w).lastStartMs = w.lastStartMs := rfl
@[simp] theorem markOverrun_preCnt (w : Block) : (markOverrun w).preCnt = w.preCnt := rfl
@[simp] theorem markOverrun_usCnt (w : Block) : (markOverrun w).usCnt = w.usCnt := rfl
@[simp] theorem markOverrun_nowMs (w : Block) : (markOverrun w).nowMs = w.nowMs := rfl
@[simp] theorem markOverrun_profile (w : Block) : (markOverrun w).profile = w.profile := rfl
@[simp] theorem markOverrun_scratch (w : Block) : (markOverrun w).scratch = w.scratch := rfl
@[simp] theorem markOverrun_acc (w : Block) : (markOverrun w).acc = w.acc := rfl
@[simp] theorem markOverrun_frame (w : Block) : (markOverrun w).frame = w.frame := rfl
@[simp] theorem markOverrun_frameValid (w : Block) : (markOverrun w).frameValid = w.frameValid := rfl
@[simp] theorem markOverrun_csCalc (w : Block) : (markOverrun w).csCalc = w.csCalc := rfl
@[simp] theorem markOverrun_lineOe (w : Block) : (markOverrun w).lineOe = w.lineOe := rfl
@[simp] theorem markOverrun_lineOut (w : Block) : (markOverrun w).lineOut = w.lineOut := rfl

@[simp] theorem calEntry_phase (w : Block) : (calEntry w).phase = w.phase := rfl
@[simp] theorem calEntry_mode (w : Block) : (calEntry w).mode = w.mode := rfl
@[simp] theorem calEntry_op (w : Block) : (calEntry w).op = w.op := rfl
@[simp] theorem calEntry_cnt (w : Block) : (calEntry w).cnt = w.cnt := rfl
@[simp] theorem calEntry_bitcnt (w : Block) : (calEntry w).bitcnt = w.bitcnt := rfl
@[simp] theorem calEntry_pendValid (w : Block) : (calEntry w).pendValid = w.pendValid := rfl
@[simp] theorem calEntry_pendCmd (w : Block) : (calEntry w).pendCmd = w.pendCmd := rfl
@[simp] theorem calEntry_done (w : Block) : (calEntry w).done = w.done := rfl
@[simp] theorem calEntry_err (w : Block) : (calEntry w).err = w.err := rfl
@[simp] theorem calEntry_cached (w : Block) : (calEntry w).cached = w.cached := rfl
@[simp] theorem calEntry_ovr (w : Block) : (calEntry w).ovr = w.ovr := rfl
@[simp] theorem calEntry_ill (w : Block) : (calEntry w).ill = w.ill := rfl
@[simp] theorem calEntry_lstate (w : Block) : (calEntry w).lstate = w.lstate := rfl
@[simp] theorem calEntry_recovering (w : Block) : (calEntry w).recovering = w.recovering := rfl
@[simp] theorem calEntry_calDone (w : Block) : (calEntry w).calDone = w.calDone := rfl
@[simp] theorem calEntry_tsValid (w : Block) : (calEntry w).tsValid = w.tsValid := rfl
@[simp] theorem calEntry_lastStartMs (w : Block) : (calEntry w).lastStartMs = w.lastStartMs := rfl
@[simp] theorem calEntry_preCnt (w : Block) : (calEntry w).preCnt = w.preCnt := rfl
@[simp] theorem calEntry_usCnt (w : Block) : (calEntry w).usCnt = w.usCnt := rfl
@[simp] theorem calEntry_nowMs (w : Block) : (calEntry w).nowMs = w.nowMs := rfl
@[simp] theorem calEntry_profile (w : Block) : (calEntry w).profile = w.profile := rfl
@[simp] theorem calEntry_scratch (w : Block) : (calEntry w).scratch = { ackl := 0, ackh := 0, lead := 0, h0 := 0, h1 := 0, seen0 := false, seen1 := false } := rfl
@[simp] theorem calEntry_acc (w : Block) : (calEntry w).acc = w.acc := rfl
@[simp] theorem calEntry_frame (w : Block) : (calEntry w).frame = w.frame := rfl
@[simp] theorem calEntry_frameValid (w : Block) : (calEntry w).frameValid = w.frameValid := rfl
@[simp] theorem calEntry_csCalc (w : Block) : (calEntry w).csCalc = w.csCalc := rfl
@[simp] theorem calEntry_lineOe (w : Block) : (calEntry w).lineOe = w.lineOe := rfl
@[simp] theorem calEntry_lineOut (w : Block) : (calEntry w).lineOut = w.lineOut := rfl

@[simp] theorem decEntry_phase (w : Block) : (decEntry w).phase = w.phase := rfl
@[simp] theorem decEntry_mode (w : Block) : (decEntry w).mode = w.mode := rfl
@[simp] theorem decEntry_op (w : Block) : (decEntry w).op = w.op := rfl
@[simp] theorem decEntry_cnt (w : Block) : (decEntry w).cnt = w.cnt := rfl
@[simp] theorem decEntry_bitcnt (w : Block) : (decEntry w).bitcnt = w.bitcnt := rfl
@[simp] theorem decEntry_pendValid (w : Block) : (decEntry w).pendValid = w.pendValid := rfl
@[simp] theorem decEntry_pendCmd (w : Block) : (decEntry w).pendCmd = w.pendCmd := rfl
@[simp] theorem decEntry_done (w : Block) : (decEntry w).done = w.done := rfl
@[simp] theorem decEntry_err (w : Block) : (decEntry w).err = w.err := rfl
@[simp] theorem decEntry_cached (w : Block) : (decEntry w).cached = w.cached := rfl
@[simp] theorem decEntry_ovr (w : Block) : (decEntry w).ovr = w.ovr := rfl
@[simp] theorem decEntry_ill (w : Block) : (decEntry w).ill = w.ill := rfl
@[simp] theorem decEntry_lstate (w : Block) : (decEntry w).lstate = w.lstate := rfl
@[simp] theorem decEntry_recovering (w : Block) : (decEntry w).recovering = w.recovering := rfl
@[simp] theorem decEntry_calDone (w : Block) : (decEntry w).calDone = w.calDone := rfl
@[simp] theorem decEntry_tsValid (w : Block) : (decEntry w).tsValid = w.tsValid := rfl
@[simp] theorem decEntry_lastStartMs (w : Block) : (decEntry w).lastStartMs = w.lastStartMs := rfl
@[simp] theorem decEntry_preCnt (w : Block) : (decEntry w).preCnt = w.preCnt := rfl
@[simp] theorem decEntry_usCnt (w : Block) : (decEntry w).usCnt = w.usCnt := rfl
@[simp] theorem decEntry_nowMs (w : Block) : (decEntry w).nowMs = w.nowMs := rfl
@[simp] theorem decEntry_profile (w : Block) : (decEntry w).profile = w.profile := rfl
@[simp] theorem decEntry_scratch (w : Block) : (decEntry w).scratch = w.scratch := rfl
@[simp] theorem decEntry_acc (w : Block) : (decEntry w).acc = 0 := rfl
@[simp] theorem decEntry_frame (w : Block) : (decEntry w).frame = w.frame := rfl
@[simp] theorem decEntry_frameValid (w : Block) : (decEntry w).frameValid = w.frameValid := rfl
@[simp] theorem decEntry_csCalc (w : Block) : (decEntry w).csCalc = w.csCalc := rfl
@[simp] theorem decEntry_lineOe (w : Block) : (decEntry w).lineOe = w.lineOe := rfl
@[simp] theorem decEntry_lineOut (w : Block) : (decEntry w).lineOut = w.lineOut := rfl

@[simp] theorem statusWrite_phase (v : Word) (w : Block) : (statusWrite v w).phase = w.phase := rfl
@[simp] theorem statusWrite_mode (v : Word) (w : Block) : (statusWrite v w).mode = w.mode := rfl
@[simp] theorem statusWrite_op (v : Word) (w : Block) : (statusWrite v w).op = w.op := rfl
@[simp] theorem statusWrite_cnt (v : Word) (w : Block) : (statusWrite v w).cnt = w.cnt := rfl
@[simp] theorem statusWrite_bitcnt (v : Word) (w : Block) : (statusWrite v w).bitcnt = w.bitcnt := rfl
@[simp] theorem statusWrite_pendValid (v : Word) (w : Block) : (statusWrite v w).pendValid = w.pendValid := rfl
@[simp] theorem statusWrite_pendCmd (v : Word) (w : Block) : (statusWrite v w).pendCmd = w.pendCmd := rfl
@[simp] theorem statusWrite_done (v : Word) (w : Block) : (statusWrite v w).done = w.done := rfl
@[simp] theorem statusWrite_err (v : Word) (w : Block) : (statusWrite v w).err = w.err := rfl
@[simp] theorem statusWrite_cached (v : Word) (w : Block) : (statusWrite v w).cached = w.cached := rfl
@[simp] theorem statusWrite_ovr (v : Word) (w : Block) : (statusWrite v w).ovr = (w.ovr && !v.getLsbD 12) := rfl
@[simp] theorem statusWrite_ill (v : Word) (w : Block) : (statusWrite v w).ill = (w.ill && !v.getLsbD 13) := rfl
@[simp] theorem statusWrite_lstate (v : Word) (w : Block) : (statusWrite v w).lstate = w.lstate := rfl
@[simp] theorem statusWrite_recovering (v : Word) (w : Block) : (statusWrite v w).recovering = w.recovering := rfl
@[simp] theorem statusWrite_calDone (v : Word) (w : Block) : (statusWrite v w).calDone = w.calDone := rfl
@[simp] theorem statusWrite_tsValid (v : Word) (w : Block) : (statusWrite v w).tsValid = w.tsValid := rfl
@[simp] theorem statusWrite_lastStartMs (v : Word) (w : Block) : (statusWrite v w).lastStartMs = w.lastStartMs := rfl
@[simp] theorem statusWrite_preCnt (v : Word) (w : Block) : (statusWrite v w).preCnt = w.preCnt := rfl
@[simp] theorem statusWrite_usCnt (v : Word) (w : Block) : (statusWrite v w).usCnt = w.usCnt := rfl
@[simp] theorem statusWrite_nowMs (v : Word) (w : Block) : (statusWrite v w).nowMs = w.nowMs := rfl
@[simp] theorem statusWrite_profile (v : Word) (w : Block) : (statusWrite v w).profile = w.profile := rfl
@[simp] theorem statusWrite_scratch (v : Word) (w : Block) : (statusWrite v w).scratch = w.scratch := rfl
@[simp] theorem statusWrite_acc (v : Word) (w : Block) : (statusWrite v w).acc = w.acc := rfl
@[simp] theorem statusWrite_frame (v : Word) (w : Block) : (statusWrite v w).frame = w.frame := rfl
@[simp] theorem statusWrite_frameValid (v : Word) (w : Block) : (statusWrite v w).frameValid = w.frameValid := rfl
@[simp] theorem statusWrite_csCalc (v : Word) (w : Block) : (statusWrite v w).csCalc = w.csCalc := rfl
@[simp] theorem statusWrite_lineOe (v : Word) (w : Block) : (statusWrite v w).lineOe = w.lineOe := rfl
@[simp] theorem statusWrite_lineOut (v : Word) (w : Block) : (statusWrite v w).lineOut = w.lineOut := rfl

@[simp] theorem startSeq_phase (m : Mode) (w : Block) : (startSeq m w).phase = .startLow := by cases m <;> rfl
@[simp] theorem startSeq_mode (m : Mode) (w : Block) : (startSeq m w).mode = m := by cases m <;> rfl
@[simp] theorem startSeq_op (m : Mode) (w : Block) : (startSeq m w).op = w.op := by cases m <;> rfl
@[simp] theorem startSeq_cnt (m : Mode) (w : Block) : (startSeq m w).cnt = 0 := by cases m <;> rfl
@[simp] theorem startSeq_bitcnt (m : Mode) (w : Block) : (startSeq m w).bitcnt = 0 := by cases m <;> rfl
@[simp] theorem startSeq_pendValid (m : Mode) (w : Block) : (startSeq m w).pendValid = w.pendValid := by cases m <;> rfl
@[simp] theorem startSeq_pendCmd (m : Mode) (w : Block) : (startSeq m w).pendCmd = w.pendCmd := by cases m <;> rfl
@[simp] theorem startSeq_done (m : Mode) (w : Block) : (startSeq m w).done = w.done := by cases m <;> rfl
@[simp] theorem startSeq_err (m : Mode) (w : Block) : (startSeq m w).err = w.err := by cases m <;> rfl
@[simp] theorem startSeq_cached (m : Mode) (w : Block) : (startSeq m w).cached = w.cached := by cases m <;> rfl
@[simp] theorem startSeq_ovr (m : Mode) (w : Block) : (startSeq m w).ovr = w.ovr := by cases m <;> rfl
@[simp] theorem startSeq_ill (m : Mode) (w : Block) : (startSeq m w).ill = w.ill := by cases m <;> rfl
@[simp] theorem startSeq_lstate (m : Mode) (w : Block) : (startSeq m w).lstate = w.lstate := by cases m <;> rfl
@[simp] theorem startSeq_recovering (m : Mode) (w : Block) : (startSeq m w).recovering = w.recovering := by cases m <;> rfl
@[simp] theorem startSeq_calDone (m : Mode) (w : Block) : (startSeq m w).calDone = w.calDone := by cases m <;> rfl
@[simp] theorem startSeq_tsValid (m : Mode) (w : Block) : (startSeq m w).tsValid = w.tsValid := by cases m <;> rfl
@[simp] theorem startSeq_lastStartMs (m : Mode) (w : Block) : (startSeq m w).lastStartMs = w.lastStartMs := by cases m <;> rfl
@[simp] theorem startSeq_preCnt (m : Mode) (w : Block) : (startSeq m w).preCnt = w.preCnt := by cases m <;> rfl
@[simp] theorem startSeq_usCnt (m : Mode) (w : Block) : (startSeq m w).usCnt = w.usCnt := by cases m <;> rfl
@[simp] theorem startSeq_nowMs (m : Mode) (w : Block) : (startSeq m w).nowMs = w.nowMs := by cases m <;> rfl
@[simp] theorem startSeq_profile (m : Mode) (w : Block) : (startSeq m w).profile = w.profile := by cases m <;> rfl
@[simp] theorem startSeq_acc (m : Mode) (w : Block) : (startSeq m w).acc = w.acc := by cases m <;> rfl
@[simp] theorem startSeq_frame (m : Mode) (w : Block) : (startSeq m w).frame = w.frame := by cases m <;> rfl
@[simp] theorem startSeq_frameValid (m : Mode) (w : Block) : (startSeq m w).frameValid = w.frameValid := by cases m <;> rfl
@[simp] theorem startSeq_csCalc (m : Mode) (w : Block) : (startSeq m w).csCalc = w.csCalc := by cases m <;> rfl
@[simp] theorem startSeq_lineOe (m : Mode) (w : Block) : (startSeq m w).lineOe = true := by cases m <;> rfl
@[simp] theorem startSeq_lineOut (m : Mode) (w : Block) : (startSeq m w).lineOut = false := by cases m <;> rfl
@[simp] theorem startSeq_dec_scratch (w : Block) : (startSeq .dec w).scratch = w.scratch := rfl
@[simp] theorem startSeq_cal_scratch (w : Block) : (startSeq .cal w).scratch = (calEntry w).scratch := rfl

@[simp] theorem timeAdvance_phase (r w : Block) : (timeAdvance r w).phase = w.phase := by unfold timeAdvance; split <;> rfl
@[simp] theorem timeAdvance_mode (r w : Block) : (timeAdvance r w).mode = w.mode := by unfold timeAdvance; split <;> rfl
@[simp] theorem timeAdvance_op (r w : Block) : (timeAdvance r w).op = w.op := by unfold timeAdvance; split <;> rfl
@[simp] theorem timeAdvance_cnt (r w : Block) : (timeAdvance r w).cnt = w.cnt := by unfold timeAdvance; split <;> rfl
@[simp] theorem timeAdvance_bitcnt (r w : Block) : (timeAdvance r w).bitcnt = w.bitcnt := by unfold timeAdvance; split <;> rfl
@[simp] theorem timeAdvance_pendValid (r w : Block) : (timeAdvance r w).pendValid = w.pendValid := by unfold timeAdvance; split <;> rfl
@[simp] theorem timeAdvance_pendCmd (r w : Block) : (timeAdvance r w).pendCmd = w.pendCmd := by unfold timeAdvance; split <;> rfl
@[simp] theorem timeAdvance_done (r w : Block) : (timeAdvance r w).done = w.done := by unfold timeAdvance; split <;> rfl
@[simp] theorem timeAdvance_err (r w : Block) : (timeAdvance r w).err = w.err := by unfold timeAdvance; split <;> rfl
@[simp] theorem timeAdvance_cached (r w : Block) : (timeAdvance r w).cached = w.cached := by unfold timeAdvance; split <;> rfl
@[simp] theorem timeAdvance_ovr (r w : Block) : (timeAdvance r w).ovr = w.ovr := by unfold timeAdvance; split <;> rfl
@[simp] theorem timeAdvance_ill (r w : Block) : (timeAdvance r w).ill = w.ill := by unfold timeAdvance; split <;> rfl
@[simp] theorem timeAdvance_lstate (r w : Block) : (timeAdvance r w).lstate = w.lstate := by unfold timeAdvance; split <;> rfl
@[simp] theorem timeAdvance_recovering (r w : Block) : (timeAdvance r w).recovering = w.recovering := by unfold timeAdvance; split <;> rfl
@[simp] theorem timeAdvance_calDone (r w : Block) : (timeAdvance r w).calDone = w.calDone := by unfold timeAdvance; split <;> rfl
@[simp] theorem timeAdvance_tsValid (r w : Block) : (timeAdvance r w).tsValid = w.tsValid := by unfold timeAdvance; split <;> rfl
@[simp] theorem timeAdvance_lastStartMs (r w : Block) : (timeAdvance r w).lastStartMs = w.lastStartMs := by unfold timeAdvance; split <;> rfl
@[simp] theorem timeAdvance_preCnt (r w : Block) : (timeAdvance r w).preCnt = 0 := by unfold timeAdvance; split <;> rfl
@[simp] theorem timeAdvance_profile (r w : Block) : (timeAdvance r w).profile = w.profile := by unfold timeAdvance; split <;> rfl
@[simp] theorem timeAdvance_scratch (r w : Block) : (timeAdvance r w).scratch = w.scratch := by unfold timeAdvance; split <;> rfl
@[simp] theorem timeAdvance_acc (r w : Block) : (timeAdvance r w).acc = w.acc := by unfold timeAdvance; split <;> rfl
@[simp] theorem timeAdvance_frame (r w : Block) : (timeAdvance r w).frame = w.frame := by unfold timeAdvance; split <;> rfl
@[simp] theorem timeAdvance_frameValid (r w : Block) : (timeAdvance r w).frameValid = w.frameValid := by unfold timeAdvance; split <;> rfl
@[simp] theorem timeAdvance_csCalc (r w : Block) : (timeAdvance r w).csCalc = w.csCalc := by unfold timeAdvance; split <;> rfl
@[simp] theorem timeAdvance_lineOe (r w : Block) : (timeAdvance r w).lineOe = w.lineOe := by unfold timeAdvance; split <;> rfl
@[simp] theorem timeAdvance_lineOut (r w : Block) : (timeAdvance r w).lineOut = w.lineOut := by unfold timeAdvance; split <;> rfl
theorem timeAdvance_usCnt (r w : Block) : (timeAdvance r w).usCnt = if r.usCnt = 999 then 0 else r.usCnt + 1 := by
  unfold timeAdvance; split <;> rfl
theorem timeAdvance_nowMs (r w : Block) (h : w.nowMs = r.nowMs) :
    (timeAdvance r w).nowMs = if r.usCnt = 999 then r.nowMs + 1 else r.nowMs := by
  unfold timeAdvance; split <;> simp_all

@[simp] theorem onBlock_blk (f : Block → Block) (s : State) : (onBlock f s).blk = f s.blk := rfl
@[simp] theorem onBlock_script (f : Block → Block) (s : State) : (onBlock f s).script = s.script := rfl
@[simp] theorem onBlock_lineIn (f : Block → Block) (s : State) : (onBlock f s).lineIn = s.lineIn := rfl
@[simp] theorem onBlock_tickNo (f : Block → Block) (s : State) : (onBlock f s).tickNo = s.tickNo := rfl
@[simp] theorem onBlock_rdLog (f : Block → Block) (s : State) : (onBlock f s).rdLog = s.rdLog := rfl

@[simp] theorem busReturn_blk (a : BitVec 4) (d : Word) (s : State) : (busReturn a d s).blk = s.blk := rfl
@[simp] theorem busReturn_script (a : BitVec 4) (d : Word) (s : State) : (busReturn a d s).script = s.script := rfl
@[simp] theorem busReturn_lineIn (a : BitVec 4) (d : Word) (s : State) : (busReturn a d s).lineIn = s.lineIn := rfl
@[simp] theorem busReturn_tickNo (a : BitVec 4) (d : Word) (s : State) : (busReturn a d s).tickNo = s.tickNo := rfl
@[simp] theorem busReturn_rdLog (a : BitVec 4) (d : Word) (s : State) : (busReturn a d s).rdLog = { addr := a, data := d } :: s.rdLog := rfl

@[simp] theorem resetBlock_blk (s : State) : (resetBlock s).blk = Block.reset := rfl
@[simp] theorem resetBlock_script (s : State) : (resetBlock s).script = s.script := rfl
@[simp] theorem resetBlock_lineIn (s : State) : (resetBlock s).lineIn = s.lineIn := rfl
@[simp] theorem resetBlock_tickNo (s : State) : (resetBlock s).tickNo = s.tickNo := rfl
@[simp] theorem resetBlock_rdLog (s : State) : (resetBlock s).rdLog = s.rdLog := rfl

@[simp] theorem placeAccess_blk (r : BusReq) (s : State) : (placeAccess r s).blk = s.blk := rfl
@[simp] theorem placeAccess_script (r : BusReq) (s : State) : (placeAccess r s).script = .access r :: s.script := rfl
@[simp] theorem placeAccess_lineIn (r : BusReq) (s : State) : (placeAccess r s).lineIn = s.lineIn := rfl
@[simp] theorem placeAccess_tickNo (r : BusReq) (s : State) : (placeAccess r s).tickNo = s.tickNo := rfl
@[simp] theorem placeAccess_rdLog (r : BusReq) (s : State) : (placeAccess r s).rdLog = s.rdLog := rfl

@[simp] theorem placeCommand_blk (k : BitVec 3) (s : State) : (placeCommand k s).blk = { s.blk with phase := .idle, pendValid := true, pendCmd := k } := rfl
@[simp] theorem placeCommand_script (k : BitVec 3) (s : State) : (placeCommand k s).script = .wait 0 :: s.script := rfl
@[simp] theorem placeCommand_lineIn (k : BitVec 3) (s : State) : (placeCommand k s).lineIn = s.lineIn := rfl
@[simp] theorem placeCommand_tickNo (k : BitVec 3) (s : State) : (placeCommand k s).tickNo = s.tickNo := rfl
@[simp] theorem placeCommand_rdLog (k : BitVec 3) (s : State) : (placeCommand k s).rdLog = s.rdLog := rfl

@[simp] theorem finishTick_blk (s t : State) : (finishTick s t).blk = timeAdvance s.blk t.blk := rfl
@[simp] theorem finishTick_script (s t : State) : (finishTick s t).script = t.script := rfl
@[simp] theorem finishTick_lineIn (s t : State) : (finishTick s t).lineIn = lineAfter s.lineIn := rfl
@[simp] theorem finishTick_tickNo (s t : State) : (finishTick s t).tickNo = s.tickNo + 1 := rfl
@[simp] theorem finishTick_rdLog (s t : State) : (finishTick s t).rdLog = t.rdLog := rfl

end Sys2Proof.Machine
end

