-- ==== Sys2Proof/Laws/Sequencer.lean ====
section
/-! SUPPORT. What the shared operations of the sequencer do, each said once. -/
namespace Sys2Proof.Machine

/-- All that one tick of a wait can do (spec/40_pulse_width.md R136, R137). -/
theorem waitTick_eq (p : Params) (lvl : Bool) (r : Block) (fin : Dur → Block → Block) :
    waitTick p lvl r fin =
      if lvl ≠ waitLevel r.phase then fin (r.cnt + 1) r
      else if waitBound p r ≤ (r.cnt + 1).toNat then timeout (waitStage r) r r
      else { r with cnt := r.cnt + 1 } := by
  unfold waitTick waitStep
  dsimp only
  split_ifs <;> rfl

/-- A calibration's failure, on a block in calibrate mode. -/
theorem calFail_eq (g : Stage) (r w : Block) (hm : w.mode = .cal) (ho : w.op = r.op) :
    calFail g r w = failedAt (stageCode g) w := by
  simp only [failedAt, hm, ho, calFail]
  by_cases h1 : r.op = 1 ∨ r.op = 2 ∨ r.op = 3 <;> by_cases h2 : r.op = 2
  · simp only [if_pos h1, if_pos h2]
    rfl
  · simp only [if_pos h1, if_neg h2]
    rfl
  · simp only [if_neg h1, if_pos h2, complete, resultCode, hm, ho]
  · simp only [if_neg h1, if_neg h2, complete, resultCode, hm, ho]

/-- All that a timeout leaves of a block (spec/42_calibrator.md R164; spec/43_decoder.md R190). -/
theorem timeout_eq (g : Stage) (r : Block) : timeout g r r = failedAt (stageCode g) r := by
  rcases (by cases r.mode <;> simp : r.mode = .dec ∨ r.mode = .cal) with hm | hm
  · simp only [timeout, failedAt, hm, decTimeout, complete, resultCode]
  · simp only [timeout, hm]
    exact calFail_eq g r r hm rfl

/-- All that ReadStart can do (spec/43_decoder.md R191). -/
theorem readStart_cases (p : Params) (r w : Block) :
    (intervalBusy p r = true ∧ r.frameValid = true ∧ readStart p r w = complete .ok { w with cached := true }) ∨
    (intervalBusy p r = true ∧ r.frameValid = false ∧ readStart p r w = complete .busy w) ∨
    (intervalBusy p r = false ∧ readStart p r w = decEntry (startSeq .dec w)) := by
  unfold readStart
  cases intervalBusy p r <;> cases r.frameValid <;> simp

/-- All that the entry of BEGIN's sequence can do (spec/44_lifecycle.md R213). -/
theorem beginEntry_cases (p : Params) (pw : Bool) (r w : Block) :
    (pw = true ∧ beginEntry p pw r w =
      complete .powerOn { w with lstate := .uninitialized, lastStartMs := r.nowMs, tsValid := true }) ∨
    (pw = false ∧ intervalBusy p r = true ∧ beginEntry p pw r w = complete .busy w) ∨
    (pw = false ∧ intervalBusy p r = false ∧ beginEntry p pw r w = startSeq .cal w) := by
  unfold beginEntry
  cases pw <;> cases intervalBusy p r <;> simp

/-- All that a successful calibration leaves of a block, for each command it can serve (spec/42_calibrator.md R163). -/
theorem calSuccess_cases (p : Params) (h0 h1 : Dur) (r w : Block) :
    let m : Block := { w with
      profile := { ack80Low := r.scratch.ackl, ack80High := r.scratch.ackh, bitLeadLow := r.scratch.lead
                   bitHighZero := h0, bitHighOne := h1 }
      calDone := true }
    ((r.op = 1 ∨ r.op = 2) ∧ calSuccess p h0 h1 r w = complete .ok { m with lstate := .ready, recovering := false }) ∨
    (r.op = 3 ∧ calSuccess p h0 h1 r w = readStart p r { m with lstate := .ready, recovering := false }) ∨
    (r.op = 4 ∧ calSuccess p h0 h1 r w = complete .ok m) ∨
    (r.op ≠ 1 ∧ r.op ≠ 2 ∧ r.op ≠ 3 ∧ r.op ≠ 4 ∧ calSuccess p h0 h1 r w = m) := by
  by_cases h1' : r.op = 1
  · simp [calSuccess, h1']
  by_cases h2' : r.op = 2
  · simp [calSuccess, h2']
  by_cases h3' : r.op = 3
  · simp [calSuccess, h3']
  by_cases h4' : r.op = 4
  · simp [calSuccess, h4']
  · refine .inr (.inr (.inr ⟨h1', h2', h3', h4', ?_⟩))
    simp only [calSuccess, h1', h2', h3', h4', or_self, if_false]

/-- All that the end of a calibration's high phase can do (spec/42_calibrator.md R162). -/
theorem calHighEnd_cases (p : Params) (r : Block) (d : Dur) :
    let sc := scratchAfterHigh p d r.scratch
    let w : Block := { r with scratch := sc, bitcnt := r.bitcnt + 1 }
    (sc.seen0 = true ∧ sc.seen1 = true ∧ calHighEnd p r d r = calSuccess p sc.h0 sc.h1 r w) ∨
    (¬(sc.seen0 = true ∧ sc.seen1 = true) ∧ (r.bitcnt + 1).toNat = p.calMaxBits ∧
      calHighEnd p r d r = calFail .bitHigh r w) ∨
    (¬(sc.seen0 = true ∧ sc.seen1 = true) ∧ (r.bitcnt + 1).toNat ≠ p.calMaxBits ∧
      calHighEnd p r d r = { w with phase := .wLead, cnt := 0 }) := by
  intro sc w
  by_cases h : sc.seen0 = true ∧ sc.seen1 = true
  · refine .inl ⟨h.1, h.2, ?_⟩
    unfold calHighEnd
    rw [if_pos (by rw [Bool.and_eq_true]; exact h)]
  · have h' : (sc.seen0 && sc.seen1) = false := by simpa using h
    by_cases hn : (r.bitcnt + 1).toNat = p.calMaxBits
    · refine .inr (.inl ⟨h, hn, ?_⟩)
      unfold calHighEnd
      rw [if_neg (by rw [h']; decide), if_pos hn]
    · refine .inr (.inr ⟨h, hn, ?_⟩)
      unfold calHighEnd
      rw [if_neg (by rw [h']; decide), if_neg hn]

end Sys2Proof.Machine
end

