-- ==== Sys2Proof/Laws/Step.lean ====
section
/-! SUPPORT. What one step can do, said once: if it answers next `t`, the block of `t` comes from a host access, a tick,
or a reset. -/
namespace Sys2Proof.Machine

/-- A dispatched command's meaning is the dispatch of its code. -/
theorem exec_commandInstr {k : BitVec 3} {i : Instr} (h : commandInstr k = some i) (s : State) :
    exec i s = .next (onBlock (dispatch Config.params k) s) := by
  unfold commandInstr at h
  split at h <;> rename_i hk <;> cases h <;> simp [exec, onBlock, dispatch, hk] <;> rfl

/-- With the sequencer idle and a command pending, the sequencer step is the dispatch. -/
theorem seqStep_dispatch {b : Block} (p : Params) (lvl : Bool) (hi : b.phase = .idle) (hp : b.pendValid = true) :
    seqStep p lvl b = dispatch p b.pendCmd b := by
  simp [seqStep, hi, hp]

/-- With the sequencer idle and no command pending, the sequencer step does nothing. -/
theorem seqStep_rest {b : Block} (p : Params) (lvl : Bool) (hi : b.phase = .idle) (hp : b.pendValid = false) :
    seqStep p lvl b = b := by
  simp [seqStep, hi, hp]

/-- What the block is after a transaction: as it was, or as a write of CMD or STATUS leaves it. -/
def accessBlock (r : BusReq) (b : Block) : Block :=
  if r.we = true ∧ r.addr = 0 then cmdWrite r.wdata b
  else if r.we = true ∧ r.addr = 1 then statusWrite r.wdata b
  else b

/-- All that a transaction does to the block. -/
theorem exec_decodeBus_blk {r : BusReq} {s t : State} (h : exec (decodeBus r) s = .next t) :
    t.blk = accessBlock r s.blk := by
  obtain ⟨we, addr, wdata⟩ := r
  cases we
  · have hr : ∀ a : BitVec 4, exec (decodeRead a) s = .next t → t.blk = s.blk := by
      rintro ⟨n, hn⟩ e
      interval_cases n <;> (cases e; rfl)
    simpa [accessBlock] using hr addr h
  · have hw : ∀ a : BitVec 4, exec (decodeWrite a wdata) s = .next t →
        t.blk = if a = 0 then cmdWrite wdata s.blk else if a = 1 then statusWrite wdata s.blk else s.blk := by
      rintro ⟨n, hn⟩ e
      interval_cases n <;> (cases e; rfl)
    simpa [accessBlock] using hw addr h

/-- A turn that is a tick, dispatch or not, leaves the ticked block. -/
theorem tickTurn_blk {s t : State} (h : (match tickTurn s with
      | .access i u => exec i u
      | .dispatch i u => afterDispatch u (exec i u)
      | .tick u => .next (plainTick u)
      | .reset u => .next (resetBlock u)) = .next t) :
    t.blk = tickBlock Config.params (sampleLine s) s.blk := by
  unfold tickTurn at h
  by_cases hd : s.blk.phase = .idle ∧ s.blk.pendValid = true
  · rw [if_pos hd] at h
    cases hi : commandInstr s.blk.pendCmd with
    | none => rw [hi] at h; cases h; rfl
    | some i =>
      rw [hi] at h
      simp only [exec_commandInstr hi, afterDispatch] at h
      cases h
      simp [tickBlock, seqStep_dispatch Config.params _ hd.1 hd.2]
  · rw [if_neg hd] at h
    cases h
    rfl

/-- If a step answers next `t`, the block of `t` comes from a transaction of the host, from nothing (a read of STATUS by
POLL), from a tick, or from a reset. -/
theorem step_next_cases {s t : State} (h : step s = .next t) :
    (∃ r rest, s.script = .access r :: rest ∧ t.blk = accessBlock r s.blk) ∨
    (∃ more rest, s.script = .poll more :: rest ∧ t.blk = s.blk) ∨
    (tickNext s = true ∧ t.blk = tickBlock Config.params (sampleLine s) s.blk) ∨
    (resetNext s = true ∧ t.blk = Block.reset) := by
  unfold step nextTurn at h
  match hs : s.script with
  | [] =>
    rw [hs] at h
    exact .inr (.inr (.inl ⟨by simp [tickNext, hs], tickTurn_blk h⟩))
  | .wait more :: rest =>
    rw [hs] at h
    exact .inr (.inr (.inl ⟨by simp [tickNext, hs], tickTurn_blk (s := { s with script := waitAfter more rest }) h⟩))
  | .access r :: rest =>
    rw [hs] at h
    exact .inl ⟨r, rest, rfl, exec_decodeBus_blk (s := { s with script := rest }) h⟩
  | .poll more :: rest =>
    rw [hs] at h
    cases h
    exact .inr (.inl ⟨more, rest, rfl, rfl⟩)
  | .rst :: rest =>
    rw [hs] at h
    cases h
    exact .inr (.inr (.inr ⟨by simp [resetNext, hs], rfl⟩))

/-- A run of `k + 1` steps whose first answers next `t` is a run of `k` steps from `t`. -/
theorem run_succ_of_step {s t : State} (k : Nat) (h : step s = .next t) :
    Host.Core.run Sys2Proof.core (k + 1) s = Host.Core.run Sys2Proof.core k t := by
  have general : ∀ (M : Host.Core) (u v : M.State), M.step u = .next v → M.run (k + 1) u = M.run k v := by
    intro M u v e
    simp [Host.Core.run, e]
  exact general Sys2Proof.core s t h

end Sys2Proof.Machine
end

