-- ==== Sys2Proof/Laws/Cases.lean ====
section
/-! SUPPORT. All that a dispatch, the end of a calibration's high phase and a sequencer step can leave of a block: one
constructor per outcome, and one lemma that says there is no other. -/
namespace Sys2Proof.Machine

/-- All that `Dispatch(k)` can leave of a block (spec/44_lifecycle.md R211). -/
inductive DispatchOutcome (p : Params) (b : Block) : BitVec 3 → Block → Prop
  /-- BEGIN, RECOVER or an uncalibrated READ that assumes power-on (R213); a first RECOVER always does (R215). -/
  | powerOn (k : BitVec 3) (rc fv : Bool) : k = 1 ∨ k = 2 ∨ (k = 3 ∧ b.calDone = false) →
      (k = 2 ∧ b.recovering = false ∧ rc = true ∧ fv = false) ∨
        (¬(k = 2 ∧ b.recovering = false) ∧ b.lstate = .poweredOn ∧ rc = b.recovering ∧ fv = b.frameValid) →
      DispatchOutcome p b k (complete .powerOn { dispatchWrites k b with
        recovering := rc, frameValid := fv, lstate := .uninitialized, lastStartMs := b.nowMs, tsValid := true })
  /-- The minimum interval has not passed. -/
  | busy (k : BitVec 3) : intervalBusy p b = true → DispatchOutcome p b k (complete .busy (dispatchWrites k b))
  /-- A READ that serves the cached frame (spec/43_decoder.md R191). -/
  | cached : intervalBusy p b = true → b.frameValid = true → b.calDone = true →
      DispatchOutcome p b 3 (complete .ok { dispatchWrites 3 b with cached := true })
  /-- A calibration begins. -/
  | calibrate (k : BitVec 3) : intervalBusy p b = false → k = 1 ∨ k = 2 ∨ k = 3 ∨ k = 4 →
      DispatchOutcome p b k (startSeq .cal (dispatchWrites k b))
  /-- A decode begins. -/
  | decode : intervalBusy p b = false → b.calDone = true →
      DispatchOutcome p b 3 (decEntry (startSeq .dec (dispatchWrites 3 b)))
  /-- START's low hold begins. -/
  | start : intervalBusy p b = false → DispatchOutcome p b 5 (startSeq .dec (dispatchWrites 5 b))
  /-- A code that no command has (log 8). -/
  | noCommand (k : BitVec 3) : k = 0 ∨ k = 6 ∨ k = 7 → DispatchOutcome p b k (dispatchWrites k b)

/-- The power-on assumption is the lifecycle state POWERED_ON. -/
theorem poweredOn_iff (b : Block) : poweredOn b = true ↔ b.lstate = .poweredOn := by simp [poweredOn]

/-- What the entry of BEGIN's sequence leaves is an outcome of a dispatch, for each command that comes to it. -/
theorem beginEntry_outcome (p : Params) (b : Block) (k : BitVec 3)
    (hk : k = 1 ∨ (k = 2 ∧ b.recovering = true) ∨ (k = 3 ∧ b.calDone = false)) :
    DispatchOutcome p b k (beginEntry p (poweredOn b) b (dispatchWrites k b)) := by
  rcases beginEntry_cases p (poweredOn b) b (dispatchWrites k b) with ⟨h, e⟩ | ⟨_, h, e⟩ | ⟨_, h, e⟩ <;> rw [e]
  · refine .powerOn k b.recovering b.frameValid ?_ (.inr ⟨?_, (poweredOn_iff b).1 h, rfl, rfl⟩) <;>
      rcases hk with hk | hk | hk <;> simp [hk]
  · exact .busy k h
  · exact .calibrate k h (by rcases hk with hk | hk | hk <;> simp [hk])

/-- A dispatch has no other outcome. -/
theorem dispatch_outcome (p : Params) (b : Block) (k : BitVec 3) : DispatchOutcome p b k (dispatch p k b) := by
  have hk : k = 0 ∨ k = 1 ∨ k = 2 ∨ k = 3 ∨ k = 4 ∨ k = 5 ∨ k = 6 ∨ k = 7 := by revert k; decide
  rcases hk with rfl | rfl | rfl | rfl | rfl | rfl | rfl | rfl
  · exact .noCommand 0 (by simp)
  · exact beginEntry_outcome p b 1 (by simp)
  · show DispatchOutcome p b 2 (recoverEntry p b (dispatchWrites 2 b))
    unfold recoverEntry
    split_ifs with h
    · rcases beginEntry_cases p true b { dispatchWrites 2 b with recovering := true, frameValid := false } with
        ⟨_, e⟩ | ⟨c, _⟩ | ⟨c, _⟩
      · rw [e]
        exact .powerOn 2 true false (by simp) (.inl ⟨rfl, h, rfl, rfl⟩)
      · cases c
      · cases c
    · exact beginEntry_outcome p b 2 (by simpa using h)
  · show DispatchOutcome p b 3 (readEntry p b (dispatchWrites 3 b))
    unfold readEntry
    split_ifs with h
    · exact beginEntry_outcome p b 3 (by simp [h])
    · have h' : b.calDone = true := by simpa using h
      rcases readStart_cases p b (dispatchWrites 3 b) with ⟨hi, hf, e⟩ | ⟨hi, _, e⟩ | ⟨hi, e⟩ <;> rw [e]
      · exact .cached hi hf h'
      · exact .busy 3 hi
      · exact .decode hi h'
  · show DispatchOutcome p b 4 (measureEntry p b (dispatchWrites 4 b))
    unfold measureEntry
    split_ifs with h
    · exact .busy 4 h
    · exact .calibrate 4 (by simpa using h) (by simp)
  · show DispatchOutcome p b 5 (startEntry p b (dispatchWrites 5 b))
    unfold startEntry
    split_ifs with h
    · exact .busy 5 h
    · exact .start (by simpa using h)
  · exact .noCommand 6 (by simp)
  · exact .noCommand 7 (by simp)

/-- A block of a calibration that has counted one more pulse, with the scratch `sc`. -/
def pulseCounted (sc : Scratch) (b : Block) : Block := { b with scratch := sc, bitcnt := b.bitcnt + 1 }

/-- A block whose profile has been written from the scratch `sc` (spec/42_calibrator.md R163). -/
def profileWritten (sc : Scratch) (b : Block) : Block := { pulseCounted sc b with
  profile := { ack80Low := b.scratch.ackl, ack80High := b.scratch.ackh, bitLeadLow := b.scratch.lead
               bitHighZero := sc.h0, bitHighOne := sc.h1 }
  calDone := true }

/-- All that the end of a calibration's high phase can leave (spec/42_calibrator.md R162, R163, R164), where `sc` is the
scratch after it. -/
inductive CalHighOutcome (p : Params) (b : Block) (sc : Scratch) : Block → Prop
  /-- Both classes seen: BEGIN or RECOVER ends. -/
  | ready : sc.seen0 = true → sc.seen1 = true → b.op = 1 ∨ b.op = 2 →
      CalHighOutcome p b sc (complete .ok { profileWritten sc b with lstate := .ready, recovering := false })
  /-- Both classes seen: MEASURE ends. -/
  | measured : sc.seen0 = true → sc.seen1 = true → b.op = 4 →
      CalHighOutcome p b sc (complete .ok (profileWritten sc b))
  /-- Both classes seen: READ serves the cached frame. -/
  | readCached : sc.seen0 = true → sc.seen1 = true → b.op = 3 → intervalBusy p b = true → b.frameValid = true →
      CalHighOutcome p b sc
        (complete .ok { profileWritten sc b with lstate := .ready, recovering := false, cached := true })
  /-- Both classes seen: READ finds the interval busy and no frame. -/
  | readBusy : sc.seen0 = true → sc.seen1 = true → b.op = 3 → intervalBusy p b = true → b.frameValid = false →
      CalHighOutcome p b sc (complete .busy { profileWritten sc b with lstate := .ready, recovering := false })
  /-- Both classes seen: READ goes on to its decode. -/
  | readDecode : sc.seen0 = true → sc.seen1 = true → b.op = 3 → intervalBusy p b = false →
      CalHighOutcome p b sc
        (decEntry (startSeq .dec { profileWritten sc b with lstate := .ready, recovering := false }))
  /-- Both classes seen, by a command that has no calibration: no run reaches this. -/
  | noCommand : sc.seen0 = true → sc.seen1 = true → b.op ≠ 1 → b.op ≠ 2 → b.op ≠ 3 → b.op ≠ 4 →
      CalHighOutcome p b sc (profileWritten sc b)
  /-- CAL_MAX_BITS pulses and one class missing. -/
  | failed : ¬(sc.seen0 = true ∧ sc.seen1 = true) → (b.bitcnt + 1).toNat = p.calMaxBits →
      CalHighOutcome p b sc (failedAt 4 (pulseCounted sc b))
  /-- The next pulse. -/
  | next : ¬(sc.seen0 = true ∧ sc.seen1 = true) → (b.bitcnt + 1).toNat ≠ p.calMaxBits →
      CalHighOutcome p b sc { pulseCounted sc b with phase := .wLead, cnt := 0 }

/-- The end of a calibration's high phase has no other outcome. -/
theorem calHighEnd_outcome (p : Params) (b : Block) (d : Dur) (hm : b.mode = .cal) :
    CalHighOutcome p b (scratchAfterHigh p d b.scratch) (calHighEnd p b d b) := by
  rcases calHighEnd_cases p b d with ⟨h0, h1, e⟩ | ⟨h, hn, e⟩ | ⟨h, hn, e⟩
  · rw [e]
    rcases calSuccess_cases p (scratchAfterHigh p d b.scratch).h0 (scratchAfterHigh p d b.scratch).h1 b
        { b with scratch := scratchAfterHigh p d b.scratch, bitcnt := b.bitcnt + 1 } with
      ⟨ho, e⟩ | ⟨ho, e⟩ | ⟨ho, e⟩ | ⟨o1, o2, o3, o4, e⟩ <;> rw [e]
    · exact .ready h0 h1 ho
    · rcases readStart_cases p b _ with ⟨hi, hf, e⟩ | ⟨hi, hf, e⟩ | ⟨hi, e⟩ <;> rw [e]
      · exact .readCached h0 h1 ho hi hf
      · exact .readBusy h0 h1 ho hi hf
      · exact .readDecode h0 h1 ho hi
    · exact .measured h0 h1 ho
    · exact .noCommand h0 h1 o1 o2 o3 o4
  · have f := calFail_eq .bitHigh b (pulseCounted (scratchAfterHigh p d b.scratch) b) hm rfl
    rw [e.trans f]
    exact .failed h hn
  · rw [e]
    exact .next h hn

/-- All that a sequencer step can leave of a block (spec/40_pulse_width.md R135). -/
inductive SeqOutcome (p : Params) (lvl : Bool) (b : Block) : Block → Prop
  /-- Nothing to do. -/
  | rest : b.phase = .idle → b.pendValid = false → SeqOutcome p lvl b b
  /-- A command is dispatched. -/
  | dispatched (c : Block) : b.phase = .idle → b.pendValid = true → DispatchOutcome p b b.pendCmd c → SeqOutcome p lvl b c
  /-- The low hold, the settle delay or a wait goes on. -/
  | counted : b.phase ≠ .idle → (b.phase = .startLow → (b.cnt + 1).toNat ≠ p.startLowUs) →
      (b.phase = .settle → (b.cnt + 1).toNat ≠ p.settleUs) →
      (b.phase ≠ .startLow → b.phase ≠ .settle → lvl = waitLevel b.phase ∧ (b.cnt + 1).toNat < waitBound p b) →
      SeqOutcome p lvl b { b with cnt := b.cnt + 1 }
  /-- The low hold ends, and START with it. -/
  | startEnds : b.phase = .startLow → (b.cnt + 1).toNat = p.startLowUs → b.op = 5 →
      SeqOutcome p lvl b (complete .ok { b with lineOe := false, lastStartMs := b.nowMs, tsValid := true })
  /-- The low hold ends and the line is released. -/
  | released : b.phase = .startLow → (b.cnt + 1).toNat = p.startLowUs → b.op ≠ 5 →
      SeqOutcome p lvl b
        { b with lineOe := false, lastStartMs := b.nowMs, tsValid := true, phase := .wResp, cnt := 0 }
  /-- A wait times out. -/
  | timedOut : sampling b.phase = true → b.phase ≠ .settle → lvl = waitLevel b.phase →
      waitBound p b ≤ (b.cnt + 1).toNat → SeqOutcome p lvl b (failedAt (stageCode (waitStage b)) b)
  /-- The response is there. -/
  | respEnds : b.phase = .wResp → lvl = false → SeqOutcome p lvl b { b with phase := .wAckL, cnt := 0 }
  /-- The low half of the acknowledgement ends. -/
  | ackLowEnds (sc : Scratch) : b.phase = .wAckL → lvl = true →
      sc = (if b.mode = .cal then { b.scratch with ackl := b.cnt + 1 } else b.scratch) →
      SeqOutcome p lvl b { b with scratch := sc, phase := .wAckH, cnt := 0 }
  /-- The high half of the acknowledgement ends. -/
  | ackHighEnds (sc : Scratch) : b.phase = .wAckH → lvl = false →
      sc = (if b.mode = .cal then { b.scratch with ackh := b.cnt + 1 } else b.scratch) →
      SeqOutcome p lvl b { b with scratch := sc, phase := .wLead, cnt := 0 }
  /-- A decode's lead-in ends. -/
  | decLeadEnds : b.phase = .wLead → b.mode = .dec → lvl = true → SeqOutcome p lvl b { b with phase := .settle, cnt := 0 }
  /-- A calibration's lead-in ends. -/
  | calLeadEnds (sc : Scratch) : b.phase = .wLead → b.mode = .cal → lvl = true →
      sc = (if b.bitcnt = 0 then { b.scratch with lead := b.cnt + 1 } else b.scratch) →
      SeqOutcome p lvl b { b with scratch := sc, phase := .wHigh, cnt := 0 }
  /-- The sample of a bit. -/
  | sampled : b.phase = .settle → (b.cnt + 1).toNat = p.settleUs →
      SeqOutcome p lvl b { b with acc := shiftIn b.acc lvl, bitcnt := b.bitcnt + 1, phase := .wHigh, cnt := 0 }
  /-- A decode's high phase ends, not the last. -/
  | decHighEnds : b.phase = .wHigh → b.mode = .dec → lvl = false → b.bitcnt ≠ 40 →
      SeqOutcome p lvl b { b with phase := .wLead, cnt := 0 }
  /-- A decode ends with a right checksum. -/
  | frameOk : b.phase = .wHigh → b.mode = .dec → lvl = false → b.bitcnt = 40 → checksumOk b.acc = true →
      SeqOutcome p lvl b (complete .ok { b with
        lineOe := true, lineOut := true, csCalc := checksum b.acc, frame := b.acc, frameValid := true })
  /-- A decode ends with a wrong checksum. -/
  | frameBad : b.phase = .wHigh → b.mode = .dec → lvl = false → b.bitcnt = 40 → checksumOk b.acc = false →
      SeqOutcome p lvl b (complete .checksumError { b with
        lineOe := true, lineOut := true, csCalc := checksum b.acc })
  /-- A calibration's high phase ends. -/
  | calHighEnds (c : Block) : b.phase = .wHigh → b.mode = .cal → lvl = false →
      CalHighOutcome p b (scratchAfterHigh p (b.cnt + 1) b.scratch) c → SeqOutcome p lvl b c

/-- A wait's outcome, given that of its end. -/
theorem waitTick_outcome (p : Params) (lvl : Bool) (b : Block) (fin : Dur → Block → Block)
    (hs : sampling b.phase = true) (hne : b.phase ≠ .settle)
    (hfin : lvl ≠ waitLevel b.phase → SeqOutcome p lvl b (fin (b.cnt + 1) b)) :
    SeqOutcome p lvl b (waitTick p lvl b fin) := by
  have hi : b.phase ≠ .idle := by intro h; rw [h] at hs; cases hs
  have hl : b.phase ≠ .startLow := by intro h; rw [h] at hs; cases hs
  rw [waitTick_eq, timeout_eq]
  split_ifs with h hb
  · exact hfin h
  · exact .timedOut hs hne (by simpa using h) hb
  · exact .counted hi (fun a => absurd a hl) (fun a => absurd a hne) (fun _ _ => ⟨by simpa using h, by omega⟩)

/-- A sequencer step has no other outcome. -/
theorem seqStep_outcome (p : Params) (lvl : Bool) (b : Block) : SeqOutcome p lvl b (seqStep p lvl b) := by
  have hmode : b.mode = .dec ∨ b.mode = .cal := by cases b.mode <;> simp
  unfold seqStep
  cases hph : b.phase <;> simp only []
  · split_ifs with h
    · exact .dispatched _ hph h (dispatch_outcome p b b.pendCmd)
    · exact .rest hph (by simpa using h)
  · unfold startLowStep
    dsimp only
    split_ifs with h ho
    · exact .startEnds hph h ho
    · exact .released hph h ho
    · exact .counted (by simp [hph]) (fun _ => h) (by simp [hph]) (by simp [hph])
  · refine waitTick_outcome p lvl b _ (by simp [hph, sampling]) (by simp [hph]) fun h => ?_
    exact .respEnds hph (by simpa [hph, waitLevel] using h)
  · refine waitTick_outcome p lvl b _ (by simp [hph, sampling]) (by simp [hph]) fun h => ?_
    have e : ackLowEnd b (b.cnt + 1) b = { b with
        scratch := if b.mode = .cal then { b.scratch with ackl := b.cnt + 1 } else b.scratch, phase := .wAckH, cnt := 0 } := by
      rcases hmode with hm | hm <;> simp [ackLowEnd, hm]
    rw [e]
    exact .ackLowEnds _ hph (by simpa [hph, waitLevel] using h) rfl
  · refine waitTick_outcome p lvl b _ (by simp [hph, sampling]) (by simp [hph]) fun h => ?_
    have e : ackHighEnd b (b.cnt + 1) b = { b with
        scratch := if b.mode = .cal then { b.scratch with ackh := b.cnt + 1 } else b.scratch, phase := .wLead, cnt := 0 } := by
      rcases hmode with hm | hm <;> simp [ackHighEnd, hm]
    rw [e]
    exact .ackHighEnds _ hph (by simpa [hph, waitLevel] using h) rfl
  · refine waitTick_outcome p lvl b _ (by simp [hph, sampling]) (by simp [hph]) fun h => ?_
    have hl : lvl = true := by simpa [hph, waitLevel] using h
    rcases hmode with hm | hm
    · simp only [leadEnd, hm]
      exact .decLeadEnds hph hm hl
    · have e : calLeadEnd b (b.cnt + 1) b = { b with
          scratch := if b.bitcnt = 0 then { b.scratch with lead := b.cnt + 1 } else b.scratch, phase := .wHigh, cnt := 0 } := by
        unfold calLeadEnd
        split_ifs <;> rfl
      simp only [leadEnd, hm]
      rw [e]
      exact .calLeadEnds _ hph hm hl rfl
  · unfold settleStep
    dsimp only
    split_ifs with h
    · exact .sampled hph h
    · exact .counted (by simp [hph]) (by simp [hph]) (fun _ => h) (by simp [hph])
  · refine waitTick_outcome p lvl b _ (by simp [hph, sampling]) (by simp [hph]) fun h => ?_
    have hl : lvl = false := by simpa [hph, waitLevel] using h
    rcases hmode with hm | hm
    · have e : highEnd p b (b.cnt + 1) b = decHighEnd b b := by simp only [highEnd, hm]
      rw [e]
      unfold decHighEnd decodeDone
      dsimp only
      split_ifs with hb hc
      · exact .frameOk hph hm hl hb hc
      · exact .frameBad hph hm hl hb (by simpa using hc)
      · exact .decHighEnds hph hm hl hb
    · simp only [highEnd, hm]
      exact .calHighEnds _ hph hm hl (calHighEnd_outcome p b _ hm)

/-- What a failure changes of a block, and how (spec/42_calibrator.md R164; spec/43_decoder.md R190). -/
theorem failedAt_frame (g : Stage) (b : Block) : ∃ e ls rc,
    failedAt (stageCode g) b = { b with err := e, done := true, phase := .idle, lstate := ls, recovering := rc } ∧
    ((b.mode = .dec ∧ ls = b.lstate ∧ rc = b.recovering ∧ 0x11 ≤ e.toNat ∧ e.toNat ≤ 0x15) ∨
      (b.mode = .cal ∧ 0x21 ≤ e.toNat ∧ e.toNat ≤ 0x25 ∧
        ls = (if b.op = 1 ∨ b.op = 2 ∨ b.op = 3 then .uninitialized else b.lstate) ∧
        rc = (if b.op = 2 then false else b.recovering))) := by
  unfold failedAt
  split
  · refine ⟨_, _, _, rfl, .inl ⟨‹_›, rfl, rfl, ?_, ?_⟩⟩ <;> cases g <;> decide
  · refine ⟨_, _, _, rfl, .inr ⟨‹_›, ?_, ?_, rfl, rfl⟩⟩ <;> cases g <;> decide

/-- What a transaction can change of a block: the command latch and the two error flags (spec/20_memory.md R87). -/
theorem accessBlock_frame (r : BusReq) (b : Block) : ∃ pv pc o i,
    accessBlock r b = { b with pendValid := pv, pendCmd := pc, ovr := o, ill := i } := by
  unfold accessBlock cmdWrite statusWrite
  split_ifs <;> exact ⟨_, _, _, _, rfl⟩

/-- A sequencer step changes neither the time nor the host error flags. -/
theorem seqStep_frame (p : Params) (lvl : Bool) (b : Block) :
    (seqStep p lvl b).preCnt = b.preCnt ∧ (seqStep p lvl b).usCnt = b.usCnt ∧ (seqStep p lvl b).nowMs = b.nowMs ∧
    (seqStep p lvl b).ill = b.ill ∧ (seqStep p lvl b).ovr = b.ovr := by
  have h := seqStep_outcome p lvl b
  generalize seqStep p lvl b = c at h
  cases h with
  | dispatched c _ _ h =>
    generalize b.pendCmd = k at h
    cases h <;> simp [startSeq, calEntry, decEntry]
  | timedOut =>
    obtain ⟨e, ls, rc, h, _⟩ := failedAt_frame (waitStage b) b
    simp [h]
  | calHighEnds c _ hm _ h =>
    cases h with
    | failed =>
      obtain ⟨e, ls, rc, h, _⟩ := failedAt_frame .bitHigh (pulseCounted (scratchAfterHigh p (b.cnt + 1) b.scratch) b)
      rw [show (4 : BitVec 8) = stageCode .bitHigh from rfl, h]
      simp [pulseCounted]
    | _ => simp [startSeq, decEntry, profileWritten, pulseCounted]
  | _ => simp

/-- Every result code is one of R105's. -/
theorem legalCode_resultCode (c : ResultCode) : legalCode (resultCode c) = true := by
  cases c with
  | terr g => cases g <;> decide
  | calErr g => cases g <;> decide
  | _ => decide

/-- The value of a shifted accumulator (spec/43_decoder.md R183). -/
theorem shiftIn_toNat (x : Frame) (l : Bool) : (shiftIn x l).toNat = (2 * x.toNat + l.toNat) % 2 ^ 40 := by
  unfold shiftIn
  rw [BitVec.toNat_append, ← Nat.shiftLeft_add_eq_or_of_lt (BitVec.isLt _)]
  have := x.isLt
  cases l <;> simp [BitVec.extractLsb'_toNat, bit, Nat.shiftLeft_eq] <;> omega

/-- The checksum as a number (spec/43_decoder.md R186). -/
theorem checksum_toNat (x : Frame) : (checksum x).toNat =
    (x.toNat / 2 ^ 32 + x.toNat / 2 ^ 24 % 256 + x.toNat / 2 ^ 16 % 256 + x.toNat / 2 ^ 8 % 256) % 256 := by
  unfold checksum
  simp only [BitVec.toNat_add, BitVec.extractLsb'_toNat, Nat.shiftRight_eq_div_pow]
  have := x.isLt
  omega

/-- One tick after another list of ticks. -/
theorem tickRun_append (p : Params) (xs ys : List Bool) (b : Block) :
    tickRun p (xs ++ ys) b = tickRun p ys (tickRun p xs b) := by
  induction xs generalizing b with
  | nil => rfl
  | cons x xs ih => exact ih _

end Sys2Proof.Machine
end

