-- ==== Sys2Proof/Laws/Decode.lean ====
section
/-! SUPPORT. Words and bytes split and join. -/
namespace Sys2Proof

/-- The reserved field of a joined command word. -/
theorem extract_rsv_append (rsv : BitVec 29) (op : BitVec 3) : (rsv ++ op).extractLsb' 3 29 = rsv := by
  apply BitVec.eq_of_getLsbD_eq
  intro i hi
  simp only [BitVec.getLsbD_append, BitVec.getLsbD_extractLsb']
  simp [hi]

/-- The OP field of a joined command word. -/
theorem extract_op_append (rsv : BitVec 29) (op : BitVec 3) : (rsv ++ op).extractLsb' 0 3 = op := by
  apply BitVec.eq_of_getLsbD_eq
  intro i hi
  simp only [BitVec.getLsbD_append, BitVec.getLsbD_extractLsb']
  simp [hi]

/-- A command word is its reserved field and its OP. -/
theorem cmd_word_split (w : Word) : w = w.extractLsb' 3 29 ++ w.extractLsb' 0 3 := by
  apply BitVec.eq_of_getLsbD_eq
  intro i hi
  simp only [BitVec.getLsbD_append, BitVec.getLsbD_extractLsb']
  interval_cases i <;> simp

/-- A word's bytes make the word. -/
theorem wordOfBytes_extract (v : Word) :
    wordOfBytes (v.extractLsb' 0 8) (v.extractLsb' 8 8) (v.extractLsb' 16 8) (v.extractLsb' 24 8) = v := by
  unfold wordOfBytes
  apply BitVec.eq_of_getLsbD_eq
  intro i hi
  simp only [BitVec.getLsbD_append, BitVec.getLsbD_extractLsb']
  interval_cases i <;> simp

/-- Decoding a joined command word with reserved bits. -/
theorem decodeCmd_rsv (rsv : BitVec 29) (op : BitVec 3) (h : rsv ≠ 0) :
    decodeCmd (rsv ++ op) = .illegalRsv rsv op := by
  simp only [decodeCmd, extract_rsv_append, extract_op_append]
  rw [if_pos h]

/-- The fields of a joined BUS pattern byte. -/
theorem bus_pattern_fields (we : Bool) (a : BitVec 4) :
    (0#3 ++ BitVec.ofBool we ++ a).extractLsb' 5 3 = 0 ∧ (0#3 ++ BitVec.ofBool we ++ a).getLsbD 4 = we ∧
    (0#3 ++ BitVec.ofBool we ++ a).extractLsb' 0 4 = a := by
  revert we a
  decide

/-- The bytes of a code read as that code. -/
theorem codeOfBytes_codeBytes (c : Code) : codeOfBytes c.format (codeBytes c) = .ok c := by
  cases c with
  | cmd w => simp [Code.format, codeBytes, bytesOfWord, codeOfBytes, wordOfBytes_extract]
  | bus r =>
    obtain ⟨h1, h2, h3⟩ := bus_pattern_fields r.we r.addr
    simp only [Code.format, codeBytes, bytesOfWord, codeOfBytes, wordOfBytes_extract, h2, h3]
    rw [if_neg (by simp [h1])]

/-- An instruction's encoding is written in its format. -/
theorem encodeCode_format (i : Instr) : (encodeCode i).format = formatOf i := rfl

end Sys2Proof
end

