-- ==== Sys2Proof/Laws/PerInstr.lean ====
section
/-! SUPPORT. Laws of every instruction, one lemma per constructor. -/
namespace Sys2Proof.Laws

/-- The code of a well-formed instruction reads as that instruction. -/
def CodeRoundTrip.Statement (i : Instr) : Prop := i.wellFormed = true → decodeCode (encodeCode i) = i

theorem CodeRoundTrip.nop : CodeRoundTrip.Statement .nop := fun _ => by decide
theorem CodeRoundTrip.beginCmd : CodeRoundTrip.Statement .beginCmd := fun _ => by decide
theorem CodeRoundTrip.recover : CodeRoundTrip.Statement .recover := fun _ => by decide
theorem CodeRoundTrip.read : CodeRoundTrip.Statement .read := fun _ => by decide
theorem CodeRoundTrip.measure : CodeRoundTrip.Statement .measure := fun _ => by decide
theorem CodeRoundTrip.start : CodeRoundTrip.Statement .start := fun _ => by decide
theorem CodeRoundTrip.illegalOp6 : CodeRoundTrip.Statement .illegalOp6 := fun _ => by decide
theorem CodeRoundTrip.illegalOp7 : CodeRoundTrip.Statement .illegalOp7 := fun _ => by decide
theorem CodeRoundTrip.illegalRsv (rsv : BitVec 29) (op : BitVec 3) : CodeRoundTrip.Statement (.illegalRsv rsv op) := by
  intro h
  exact decodeCmd_rsv rsv op (by simpa [Instr.wellFormed] using h)
theorem CodeRoundTrip.rdCmd : CodeRoundTrip.Statement .rdCmd := fun _ => by decide
theorem CodeRoundTrip.rdStatus : CodeRoundTrip.Statement .rdStatus := fun _ => by decide
theorem CodeRoundTrip.rdErr : CodeRoundTrip.Statement .rdErr := fun _ => by decide
theorem CodeRoundTrip.rdData : CodeRoundTrip.Statement .rdData := fun _ => by decide
theorem CodeRoundTrip.rdCsum : CodeRoundTrip.Statement .rdCsum := fun _ => by decide
theorem CodeRoundTrip.rdRawLo : CodeRoundTrip.Statement .rdRawLo := fun _ => by decide
theorem CodeRoundTrip.rdRawHi : CodeRoundTrip.Statement .rdRawHi := fun _ => by decide
theorem CodeRoundTrip.rdProfAck : CodeRoundTrip.Statement .rdProfAck := fun _ => by decide
theorem CodeRoundTrip.rdProfLead : CodeRoundTrip.Statement .rdProfLead := fun _ => by decide
theorem CodeRoundTrip.rdProfBit : CodeRoundTrip.Statement .rdProfBit := fun _ => by decide
theorem CodeRoundTrip.rdTstamp : CodeRoundTrip.Statement .rdTstamp := fun _ => by decide
theorem CodeRoundTrip.rdNow : CodeRoundTrip.Statement .rdNow := fun _ => by decide
theorem CodeRoundTrip.rdValue : CodeRoundTrip.Statement .rdValue := fun _ => by decide
theorem CodeRoundTrip.rdRsvdD : CodeRoundTrip.Statement .rdRsvdD := fun _ => by decide
theorem CodeRoundTrip.rdRsvdE : CodeRoundTrip.Statement .rdRsvdE := fun _ => by decide
theorem CodeRoundTrip.rdRsvdF : CodeRoundTrip.Statement .rdRsvdF := fun _ => by decide
theorem CodeRoundTrip.wrCmd (v : Word) : CodeRoundTrip.Statement (.wrCmd v) := fun _ => rfl
theorem CodeRoundTrip.wrStatus (v : Word) : CodeRoundTrip.Statement (.wrStatus v) := fun _ => rfl
theorem CodeRoundTrip.wrErr (v : Word) : CodeRoundTrip.Statement (.wrErr v) := fun _ => rfl
theorem CodeRoundTrip.wrData (v : Word) : CodeRoundTrip.Statement (.wrData v) := fun _ => rfl
theorem CodeRoundTrip.wrCsum (v : Word) : CodeRoundTrip.Statement (.wrCsum v) := fun _ => rfl
theorem CodeRoundTrip.wrRawLo (v : Word) : CodeRoundTrip.Statement (.wrRawLo v) := fun _ => rfl
theorem CodeRoundTrip.wrRawHi (v : Word) : CodeRoundTrip.Statement (.wrRawHi v) := fun _ => rfl
theorem CodeRoundTrip.wrProfAck (v : Word) : CodeRoundTrip.Statement (.wrProfAck v) := fun _ => rfl
theorem CodeRoundTrip.wrProfLead (v : Word) : CodeRoundTrip.Statement (.wrProfLead v) := fun _ => rfl
theorem CodeRoundTrip.wrProfBit (v : Word) : CodeRoundTrip.Statement (.wrProfBit v) := fun _ => rfl
theorem CodeRoundTrip.wrTstamp (v : Word) : CodeRoundTrip.Statement (.wrTstamp v) := fun _ => rfl
theorem CodeRoundTrip.wrNow (v : Word) : CodeRoundTrip.Statement (.wrNow v) := fun _ => rfl
theorem CodeRoundTrip.wrValue (v : Word) : CodeRoundTrip.Statement (.wrValue v) := fun _ => rfl
theorem CodeRoundTrip.wrRsvdD (v : Word) : CodeRoundTrip.Statement (.wrRsvdD v) := fun _ => rfl
theorem CodeRoundTrip.wrRsvdE (v : Word) : CodeRoundTrip.Statement (.wrRsvdE v) := fun _ => rfl
theorem CodeRoundTrip.wrRsvdF (v : Word) : CodeRoundTrip.Statement (.wrRsvdF v) := fun _ => rfl

end Sys2Proof.Laws
end

