-- ==== Sys2Proof/Tests/Slice0.lean ====
section
/-! SUPPORT. Tests: words written out from spec/30_encoding.md, the vectors of spec/95_test_vectors.md, and for every
statement with hypotheses a concrete state that meets them. -/
namespace Sys2Proof.Tests
open Sys2Proof Sys2Proof.Machine

/-! ## WellFormed and decode -/

theorem test_wellFormed_rejects_rsv_zero : (Instr.illegalRsv 0 3).wellFormed = false := by decide
theorem test_wellFormed_accepts_rsv : (Instr.illegalRsv 0x1FFFFFFF 7).wellFormed = true := by decide

theorem test_decode_commands :
    decodeTableWord 32 0x00000000 = some .nop ∧ decodeTableWord 32 0x00000001 = some .beginCmd ∧
    decodeTableWord 32 0x00000002 = some .recover ∧ decodeTableWord 32 0x00000003 = some .read ∧
    decodeTableWord 32 0x00000004 = some .measure ∧ decodeTableWord 32 0x00000005 = some .start ∧
    decodeTableWord 32 0x00000006 = some .illegalOp6 ∧ decodeTableWord 32 0x00000007 = some .illegalOp7 := by decide
theorem test_decode_reserved_bits :
    decodeTableWord 32 0x00000008 = some (.illegalRsv 1 0) ∧ decodeTableWord 32 0x80000003 = some (.illegalRsv 0x10000000 3) ∧
    decodeTableWord 32 0x0000000E = some (.illegalRsv 1 6) := by decide
theorem test_decode_reads :
    decodeTableWord 5 0b00000 = some .rdCmd ∧ decodeTableWord 5 0b00001 = some .rdStatus ∧
    decodeTableWord 5 0b00010 = some .rdErr ∧ decodeTableWord 5 0b00011 = some .rdData ∧
    decodeTableWord 5 0b00100 = some .rdCsum ∧ decodeTableWord 5 0b00101 = some .rdRawLo ∧
    decodeTableWord 5 0b00110 = some .rdRawHi ∧ decodeTableWord 5 0b00111 = some .rdProfAck := by decide
theorem test_decode_reads_upper :
    decodeTableWord 8 0b01000 = some .rdProfLead ∧ decodeTableWord 8 0b01001 = some .rdProfBit ∧
    decodeTableWord 8 0b01010 = some .rdTstamp ∧ decodeTableWord 8 0b01011 = some .rdNow ∧
    decodeTableWord 8 0b01100 = some .rdValue ∧ decodeTableWord 8 0b01101 = some .rdRsvdD ∧
    decodeTableWord 8 0b01110 = some .rdRsvdE ∧ decodeTableWord 8 0b01111 = some .rdRsvdF := by decide
theorem test_decode_writes :
    decode .bus [0b10000, 0x01, 0x00, 0x00, 0x00] = .ok (.wrCmd 0x00000001) ∧
    decode .bus [0b10001, 0x00, 0x30, 0x00, 0x00] = .ok (.wrStatus 0x00003000) ∧
    decode .bus [0b10010, 0x78, 0x56, 0x34, 0x12] = .ok (.wrErr 0x12345678) ∧
    decode .bus [0b10011, 0xFF, 0xFF, 0xFF, 0xFF] = .ok (.wrData 0xFFFFFFFF) ∧
    decode .bus [0b10100, 0x01, 0x00, 0x00, 0x80] = .ok (.wrCsum 0x80000001) ∧
    decodeTableWord 8 0b10101 = some (.wrRawLo 0) ∧ decodeTableWord 8 0b10110 = some (.wrRawHi 0) ∧
    decodeTableWord 8 0b10111 = some (.wrProfAck 0) := by decide
theorem test_decode_writes_upper :
    decodeTableWord 8 0b11000 = some (.wrProfLead 0) ∧ decodeTableWord 8 0b11001 = some (.wrProfBit 0) ∧
    decode .bus [0b11010, 0x05, 0x00, 0x00, 0x00] = .ok (.wrTstamp 5) ∧
    decodeTableWord 8 0b11011 = some (.wrNow 0) ∧ decodeTableWord 8 0b11100 = some (.wrValue 0) ∧
    decodeTableWord 8 0b11101 = some (.wrRsvdD 0) ∧ decodeTableWord 8 0b11110 = some (.wrRsvdE 0) ∧
    decodeTableWord 8 0b11111 = some (.wrRsvdF 0) := by decide
theorem test_decode_rejects :
    decode .cmd [0x01, 0x00, 0x00] = .error .badLength ∧ decode .bus [] = .error .badLength ∧
    decode .bus [0b00100001, 0, 0, 0, 0] = .error .padBits ∧ decodeTableWord 64 1 = none := by decide
theorem test_encode :
    encode .measure = [0x04, 0x00, 0x00, 0x00] ∧ encode (.illegalRsv 1 6) = [0x0E, 0x00, 0x00, 0x00] ∧
    encode .rdStatus = [0b00001, 0, 0, 0, 0] ∧ encode (.wrTstamp 0x12345678) = [0b11010, 0x78, 0x56, 0x34, 0x12] := by decide

/-! ## Vectors of spec/95_test_vectors.md -/

/-- The frame F of section 0. -/
def frameF : Frame := 0x0194803247

/-- A machine whose block is `b`. -/
def withBlock (b : Block) : State := { State.reset with blk := b }

/-- The profile that P1's calibration writes. -/
def profileP1 : Profile := { ack80Low := 80, ack80High := 80, bitLeadLow := 50, bitHighZero := 27, bitHighOne := 70 }

/-- What P1 leaves, where it is not as at reset. -/
def blockP1 : Block := { Block.reset with
  op := 3, cnt := 29, bitcnt := 40, done := true, lstate := .ready, calDone := true, tsValid := true, lastStartMs := 4004
  nowMs := 4007, usCnt := 787, profile := profileP1, acc := frameF, frame := frameF, frameValid := true, csCalc := 0x47
  lineOe := true, lineOut := true }

/-- A block on which BEGIN at tick 1 after reset has acted, at `ms` milliseconds. -/
def blockBegun (ms : Word) : Block := { Block.reset with
  op := 1, done := true, err := 0x01, lstate := .uninitialized, tsValid := true, nowMs := ms }

/-- The block after one step. -/
def stepped (s : State) : Option Block :=
  match step s with
  | .next t => some t.blk
  | _ => none

/-- The block after an instruction's meaning. -/
def ran (i : Instr) (b : Block) : Option Block :=
  match exec i (withBlock b) with
  | .next t => some t.blk
  | _ => none

/-- What a read of an address returns after one step of the bus. -/
def readBack (a : BitVec 4) (b : Block) : Option Word :=
  match step { withBlock b with script := [hostRd a] } with
  | .next t => t.rdLog.head?.map BusRead.data
  | _ => none

-- The reads, on P1's end state (section 3, P1) and the table of 2.7.
theorem test_rdCmd : readBack 0x0 blockP1 = some 0x00000000 := by decide
theorem test_rdStatus : readBack 0x1 blockP1 = some 0x0A030FCE := by decide
theorem test_rdErr : readBack 0x2 (blockBegun 0) = some 0x00000001 := by decide
theorem test_rdData : readBack 0x3 blockP1 = some 0x01948032 := by decide
theorem test_rdCsum : readBack 0x4 blockP1 = some 0x00004747 := by decide
theorem test_rdRawLo : readBack 0x5 blockP1 = some 0x94803247 := by decide
theorem test_rdRawHi : readBack 0x6 blockP1 = some 0x00000001 := by decide
theorem test_rdProfAck : readBack 0x7 blockP1 = some 0x00500050 := by decide
theorem test_rdProfLead : readBack 0x8 blockP1 = some 0x00000032 := by decide
theorem test_rdProfBit : readBack 0x9 blockP1 = some 0x0046001B := by decide
theorem test_rdTstamp : readBack 0xA { blockP1 with lastStartMs := 2002 } = some 0x000007D2 := by decide
theorem test_rdNow : readBack 0xB blockP1 = some 0x00000FA7 := by decide
theorem test_rdValue : readBack 0xC blockP1 = some 0xFFCE0194 := by decide
theorem test_rdRsvdD : readBack 0xD blockP1 = some 0x00000000 := by decide
theorem test_rdRsvdE : readBack 0xE blockP1 = some 0x00000000 := by decide
theorem test_rdRsvdF : readBack 0xF blockP1 = some 0x00000000 := by decide
theorem test_rdStatus_pending : readBack 0x1 { Block.reset with pendValid := true, ovr := true, ill := true } =
    some 0x00003001 := by decide

-- The command words (2.6, S5, S6, S8).
theorem test_begin_after_reset : (ran .beginCmd Block.reset).map (fun b => (b.err, b.lstate, b.tsValid, b.lineOe)) =
    some (0x01, .uninitialized, true, false) := by decide
theorem test_begin_interval : (ran .beginCmd (blockBegun 1999)).map (fun b => (b.err, b.phase)) = some (0x02, .idle) ∧
    (ran .beginCmd (blockBegun 2000)).map (fun b => (b.phase, b.mode, b.lineOe, b.lineOut)) =
      some (.startLow, .cal, true, false) := by decide
theorem test_recover_first : (ran .recover { blockP1 with nowMs := 4100 }).map (fun b =>
    (b.err, b.recovering, b.frameValid, b.lstate, b.lastStartMs, b.lineOe)) =
    some (0x01, true, false, .uninitialized, 4100, true) := by decide
theorem test_recover_again : (ran .recover { blockP1 with
      nowMs := 4100, lastStartMs := 4100, recovering := true, frameValid := false, lstate := .uninitialized }).map (fun b =>
    (b.err, b.recovering, b.lastStartMs)) = some (0x02, true, 4100) := by decide
theorem test_read_cached : (ran .read { blockP1 with nowMs := 4008 }).map (fun b =>
    (b.err, b.cached, b.frame, b.phase)) = some (0x00, true, frameF, .idle) := by decide
theorem test_read_decodes : (ran .read { blockP1 with nowMs := 6004 }).map (fun b =>
    (b.phase, b.mode, b.acc, b.cached, b.lineOut)) = some (.startLow, .dec, 0, false, false) := by decide
theorem test_measure_after_reset : (ran .measure Block.reset).map (fun b => (b.phase, b.mode, b.op, b.lstate)) =
    some (.startLow, .cal, 4, .poweredOn) := by decide
theorem test_measure_busy : (ran .measure (blockBegun 1)).map (fun b => (b.err, b.lstate)) = some (0x02, .uninitialized) := by
  decide
theorem test_start_after_reset : (ran .start Block.reset).map (fun b => (b.phase, b.mode, b.op, b.lineOe)) =
    some (.startLow, .dec, 5, true) := by decide
theorem test_start_busy : (ran .start (blockBegun 1)).map (fun b => (b.err, b.op)) = some (0x02, 5) := by decide
theorem test_nop : ran .nop blockP1 = some blockP1 := by decide
theorem test_illegalOp6 : (ran .illegalOp6 Block.reset).map (fun b => (b.ill, b.pendValid)) = some (true, false) := by decide
theorem test_illegalOp7 : (ran .illegalOp7 Block.reset).map (fun b => (b.ill, b.pendValid)) = some (true, false) := by decide
theorem test_illegalRsv : (ran (.illegalRsv 1 0) Block.reset).map (regStatus Config.params) = some 0x00002000 := by decide

-- The writes (2.6, 2.7).
theorem test_wrCmd_latches : (ran (.wrCmd 0x1) { Block.reset with ill := true }).map (regStatus Config.params) =
    some 0x00002001 := by decide
theorem test_wrCmd_overrun : (ran (.wrCmd 0x3) { Block.reset with pendValid := true, pendCmd := 1, ill := true }).map (fun b =>
    (regStatus Config.params b, b.pendCmd)) = some (0x00003001, 1) := by decide
theorem test_wrStatus_ovr : (ran (.wrStatus 0x00001000) { Block.reset with ovr := true, ill := true }).map (fun b =>
    (b.ovr, b.ill)) = some (false, true) := by decide
theorem test_wrStatus_ill : (ran (.wrStatus 0x00002000) { Block.reset with ovr := true, ill := true }).map (fun b =>
    (b.ovr, b.ill)) = some (true, false) := by decide
theorem test_ignored_writes : [Instr.wrErr 5, .wrData 5, .wrCsum 5, .wrRawLo 5, .wrRawHi 5, .wrProfAck 5, .wrProfLead 5,
      .wrProfBit 5, .wrTstamp 5, .wrNow 5, .wrValue 5, .wrRsvdD 5, .wrRsvdE 5, .wrRsvdF 5].all
    (fun i => ran i blockP1 == some blockP1) = true := by decide

-- The comparators, the conversions and the host's numbers (S1, S2, S3, 2.2, 2.3, 2.5, 2.7).
theorem test_checksum : checksumOk frameF = true ∧ checksumOk 0x0194803246 = false ∧ checksumOk 0x01948032C7 = false ∧
    checksumOk 0xFFFFFFFFFC = true ∧ checksumOk 0xFFFFFFFFFD = false := by decide
theorem test_temperature : tempTenths 0x8032 = 0xFFCE ∧ tempTenths 0x0032 = 0x0032 ∧ tempTenths 0x8000 = 0x0000 ∧
    tempTenths 0x8001 = 0xFFFF ∧ tempTenths 0xFFFF = 0x8001 ∧ tempTenths 0x7FFF = 0x7FFF := by decide
theorem test_classes : classOne Config.params 40 = false ∧ classOne Config.params 41 = true := by decide
theorem test_interval : intervalBusy Config.params { Block.reset with tsValid := true, lastStartMs := 0xFFFFFFF0, nowMs := 0x10 } = true ∧
    intervalBusy Config.params { Block.reset with tsValid := true, lastStartMs := 0xFFFFF830 } = false ∧
    intervalBusy Config.params { Block.reset with tsValid := true, lastStartMs := 5, nowMs := 4 } = false := by decide
theorem test_shift : [true, false, true].foldl shiftIn 0 = 0x5 := by decide
/-- R265: the bounds of SENTINEL_TEMP: just below -3276.7, minus infinity, and their neighbours that it may not be. -/
theorem test_sentinel_bounds :
    sentinelTempLegal (tempF32 0x8001) = false ∧ sentinelTempLegal (sentinelTempAt 0) = true ∧
    sentinelTempAt 976434380 = 0xFF800000 ∧ sentinelTempLegal 0xFF800000 = true ∧ sentinelTempLegal 0xFF800001 = false := by
  decide
theorem test_get_raw_events :
    hostGetRaw 0 = [hostRd 5, hostRd 6] ∧ hostGetRaw 2 = [hostRd 5, .wait 1, hostRd 6] ∧
    hostReadSensor 0 [] = [hostCommand 3, .poll 0, hostRd 2, hostRd 12, hostRd 4, hostRd 5, hostRd 6] := by decide
theorem test_floats : humF32 404 = 0x4221999A ∧ tempF32 0xFFCE = 0xC0A00000 ∧ tempF32 0x0032 = 0x40A00000 := by decide
theorem test_wait_bounds : waitStep true false 80 79 = .ended 80 ∧ waitStep false false 80 79 = .timedOut ∧
    waitStep false false 80 78 = .holding 79 := by decide

-- Where the machine fetches: the word placed is the word the next step runs.
theorem test_fetch_begin : (stepped (State.reset.withFetchWord 32 1)).map (fun b => (b.err, b.pendValid, b.usCnt)) =
    some (0x01, false, 1) := by decide
theorem test_fetch_illegal : (stepped (State.reset.withFetchWord 32 0xFFFFFFFF)).map Block.ill = some true := by decide
theorem test_fetch_write : (stepped (State.reset.withFetchWord 8 0b10000)) = some Block.reset := by decide
theorem test_tick_wrap : (stepped { withBlock { Block.reset with usCnt := 999, nowMs := 0xFFFFFFFF } with
    lineIn := [{ level := true, more := 3 }] }).map (fun b => (b.usCnt, b.nowMs)) = some (0, 0) := by decide

/-! ## Witnesses: the hypotheses of each statement, met -/

/-- Parameters that satisfy the constraints of R8 to R16, with CLKS_PER_US at its least. -/
def paramsTwo : Params := { Config.params with clksPerUs := 2 }

theorem paramsTwo_valid : paramsTwo.Valid := by constructor <;> decide

/-- The block at a phase of a READ's decode with P1's profile. -/
def decoding (ph : Phase) (n : BitVec 6) (a : Frame) (c : Dur) : Block := { blockP1 with
  phase := ph, done := false, bitcnt := n, acc := a, cnt := c, lineOe := false, frameValid := false }

/-- The block at a phase of a calibration for a command, with one class seen. -/
def calibrating (op : BitVec 3) (ph : Phase) (n : BitVec 6) (c : Dur) : Block := { Block.reset with
  op := op, mode := .cal, phase := ph, bitcnt := n, cnt := c, lstate := .uninitialized
  scratch := { ackl := 80, ackh := 80, lead := 50, h0 := 27, h1 := 0, seen0 := true, seen1 := false } }

/-- A calibrated, idle block with a command pending. -/
def pending (k : BitVec 3) : Block := { blockP1 with pendValid := true, pendCmd := k }

/-- A step whose tick samples `lvl`. -/
def ticking (b : Block) (lvl : Bool) : State := { withBlock b with lineIn := [{ level := lvl, more := 0 }] }

/-- A block whose next step is a transaction. -/
def accessing (b : Block) (r : BusReq) : State := { withBlock b with script := [.access r] }

theorem decoding_last_inv : BlockInv Config.params (decoding .wHigh 40 frameF 29) := by
  constructor
  case prescaler => exact Nat.succ_pos _
  all_goals simp [decoding, blockP1, Block.reset, sampling, beforeBits, phaseLimit, waitBound, Config.params, profileP1, frameF, legalCode]
  constructor <;> simp

theorem calibrating_last_inv : BlockInv Config.params (calibrating 3 .wHigh 7 69) := by
  constructor
  case prescaler => exact Nat.succ_pos _
  all_goals simp [calibrating, Block.reset, sampling, beforeBits, phaseLimit, waitBound, Config.params, legalCode]
  constructor <;> simp [Measured]

theorem pending_inv : ∀ k : BitVec 3, 1 ≤ k.toNat → k.toNat ≤ 5 → BlockInv paramsTwo (pending k) := by
  intro k h1 h5
  constructor <;>
    simp [pending, blockP1, Block.reset, sampling, beforeBits, paramsTwo, Config.params, profileP1, legalCode, h1, h5]
  · constructor <;> simp
  · decide

theorem witness_DecodeOfEncodeIsIdentity : (Instr.illegalRsv 1 0).wellFormed = true ∧ (Instr.wrRsvdF 0xFFFFFFFF).wellFormed = true := by
  decide
theorem witness_StepRunsTheFetchedInstruction_bus :
    (accessing blockP1 { we := true, addr := 15, wdata := 1 }).script = .access { we := true, addr := 15, wdata := 1 } :: [] ∧
    decode .bus (codeBytes (.bus { we := true, addr := 15, wdata := 1 })) = .ok (.wrRsvdF 1) := by decide
theorem witness_StepRunsTheFetchedInstruction_poll : ({ withBlock blockP1 with script := [.poll 0] } : State).script = .poll 0 :: [] := rfl
theorem witness_StepRunsTheFetchedInstruction_dispatch :
    (tickNext (withBlock (pending 1)) = true ∧ (pending 1).phase = .idle ∧ (pending 1).pendValid = true ∧
      1 ≤ (pending 1).pendCmd.toNat ∧ (pending 1).pendCmd.toNat ≤ 5) ∧
    tickNext { withBlock (pending 5) with script := [.wait 0] } = true ∧ (pending 5).pendCmd.toNat ≤ 5 := by decide
theorem witness_TickIsSequencerStepAndTimeAdvance : tickNext State.reset = true := rfl
theorem witness_TickIsTheClockEdgesOfAMicrosecond :
    paramsTwo.Valid ∧ ({ blockP1 with preCnt := 1 } : Block).preCnt < paramsTwo.clksPerUs ∧
    0 < paramsTwo.clksPerUs - ({ blockP1 with preCnt := 1 } : Block).preCnt := ⟨paramsTwo_valid, by decide, by decide⟩
theorem witness_TimeAfterTicks : ({ blockP1 with usCnt := 999 } : Block).usCnt.toNat ≤ 999 ∧ 1 ≤ 1 ∧ ([] : List Bool).length = 1 - 1 := by
  decide
theorem witness_BoundedWaitEndsOrTimesOut : 1 ≤ 65535 ∧ 65535 ≤ 65535 ∧ 1 ≤ 1 ∧ 1 ≤ 65535 := by decide
theorem witness_IntervalBusyIsModularElapsedTime :
    ({ Block.reset with lastStartMs := 0xFFFFF830 } : Block).nowMs.toNat = ((0xFFFFF830#32).toNat + 2000) % 2 ^ 32 := by
  decide
theorem witness_WriteCommandAdmission : ¬(6#32).toNat < 6 ∧ ((5#32) ≠ 0x00000000 ∧ (5#32).toNat < 6 ∧
    (Block.reset.pendValid = true ∨ (decoding .wResp 0 0 0).phase ≠ .idle)) ∧
    ¬(Block.reset.pendValid = true ∨ Block.reset.phase ≠ .idle) ∧
    tickNext (withBlock { Block.reset with pendValid := true, pendCmd := 5 }) = true := by decide
theorem witness_NopAndIllegalWords : 6 ≤ (6#32).toNat ∧ 6 ≤ (0xFFFFFFFF#32).toNat := by decide
theorem witness_BeginAtItsDispatch : Block.reset.lstate = .poweredOn ∧
    ((blockBegun 1999).lstate ≠ .poweredOn ∧ intervalBusy Config.params (blockBegun 1999) = true) ∧
    (blockBegun 2000).lstate ≠ .poweredOn ∧ intervalBusy Config.params (blockBegun 2000) = false := by decide
theorem witness_RecoverAtItsDispatch : blockP1.recovering = false ∧
    (({ Block.reset with recovering := true } : Block).recovering = true ∧ Block.reset.lstate = .poweredOn) ∧
    (({ blockBegun 1999 with recovering := true } : Block).recovering = true ∧ intervalBusy Config.params (blockBegun 1999) = true) ∧
    ({ blockBegun 2000 with recovering := true } : Block).recovering = true ∧
    intervalBusy Config.params { blockBegun 2000 with recovering := true } = false := by decide
theorem witness_ReadAtItsDispatch_uncalibrated :
    (Block.reset.calDone = false ∧ Block.reset.lstate = .poweredOn) ∧
    ((blockBegun 0).calDone = false ∧ (blockBegun 0).lstate ≠ .poweredOn ∧ intervalBusy Config.params (blockBegun 0) = true) ∧
    (blockBegun 2000).calDone = false ∧ intervalBusy Config.params (blockBegun 2000) = false := by decide
theorem witness_ReadAtItsDispatch_calibrated :
    (blockP1.calDone = true ∧ intervalBusy Config.params { blockP1 with nowMs := 6003 } = true ∧ blockP1.frameValid = true) ∧
    (intervalBusy Config.params { blockP1 with frameValid := false } = true) ∧
    intervalBusy Config.params { blockP1 with nowMs := 6004 } = false := by decide
theorem witness_MeasureAtItsDispatch : intervalBusy Config.params (blockBegun 1999) = true ∧
    intervalBusy Config.params (blockBegun 2000) = false := by decide
theorem witness_StartAtItsDispatch : intervalBusy Config.params (blockBegun 1999) = true ∧
    intervalBusy Config.params (blockBegun 2000) = false := by decide
theorem witness_LowHoldAndRelease : (decoding .startLow 0 0 1998).phase = .startLow ∧
    ((decoding .startLow 0 0 1998).cnt + 1).toNat ≠ paramsTwo.startLowUs ∧
    ((decoding .startLow 0 0 1999).cnt + 1).toNat = paramsTwo.startLowUs ∧ (decoding .startLow 0 0 1999).op ≠ 5 ∧
    ({ decoding .startLow 0 0 1999 with op := 5 } : Block).op = 5 := by decide
theorem witness_LowHoldAndRelease_whole : paramsTwo.Valid ∧
    ({ decoding .startLow 0 0 0 with lineOe := true, lineOut := false } : Block).lineOe = true ∧
    (List.replicate 1999 false).length < paramsTwo.startLowUs ∧ (List.replicate 2000 false).length = paramsTwo.startLowUs :=
  ⟨paramsTwo_valid, rfl, by rw [List.length_replicate]; decide, by rw [List.length_replicate]; rfl⟩
theorem witness_AcknowledgementWaits : (decoding .wResp 0 0 199).phase = .wResp ∧ (decoding .wAckL 0 0 199).phase = .wAckL ∧
    (decoding .wAckH 0 0 199).phase = .wAckH ∧ paramsTwo.ackTimeoutUs ≤ ((199 : Dur) + 1).toNat ∧
    ((198 : Dur) + 1).toNat < paramsTwo.ackTimeoutUs ∧ (calibrating 1 .wAckL 0 199).mode = .cal := by decide
theorem witness_CalibrationLeadIn : (calibrating 1 .wLead 0 199).phase = .wLead ∧ (calibrating 1 .wLead 0 199).mode = .cal ∧
    paramsTwo.calTimeoutUs ≤ ((199 : Dur) + 1).toNat ∧ ((198 : Dur) + 1).toNat < paramsTwo.calTimeoutUs := by decide
theorem witness_CalibrationHighPhase_success :
    (∀ op : BitVec 3, (calibrating op .wHigh 7 40).phase = .wHigh ∧ (calibrating op .wHigh 7 40).mode = .cal ∧
      (scratchAfterHigh paramsTwo 41 (calibrating op .wHigh 7 40).scratch).seen1 = true) ∧
    intervalBusy paramsTwo (calibrating 3 .wHigh 7 40) = false ∧
    intervalBusy paramsTwo { calibrating 3 .wHigh 7 40 with tsValid := true, frameValid := true } = true ∧
    intervalBusy paramsTwo { calibrating 3 .wHigh 7 40 with tsValid := true } = true := by decide
theorem witness_CalibrationHighPhase_others :
    (scratchAfterHigh paramsTwo 40 (calibrating 1 .wHigh 39 39).scratch).seen1 = false ∧
    ((calibrating 1 .wHigh 39 39).bitcnt + 1).toNat = paramsTwo.calMaxBits ∧
    ((calibrating 1 .wHigh 38 39).bitcnt + 1).toNat ≠ paramsTwo.calMaxBits ∧
    paramsTwo.calTimeoutUs ≤ ((199 : Dur) + 1).toNat ∧ ((198 : Dur) + 1).toNat < paramsTwo.calTimeoutUs := by decide
theorem witness_DecodeLeadIn : (decoding .wLead 0 0 79).phase = .wLead ∧ (decoding .wLead 0 0 79).mode = .dec ∧
    (decoding .wLead 0 0 79).profile.bitLeadLow.toNat + paramsTwo.leadSlackUs ≤ ((79 : Dur) + 1).toNat ∧
    ((78 : Dur) + 1).toNat < (decoding .wLead 0 0 78).profile.bitLeadLow.toNat + paramsTwo.leadSlackUs ∧
    (decoding .wLead 39 0 79).bitcnt ≠ 0 := by decide
theorem witness_DecodeSample : (decoding .settle 0 0 39).phase = .settle ∧ ((39 : Dur) + 1).toNat = paramsTwo.settleUs ∧
    ((38 : Dur) + 1).toNat ≠ paramsTwo.settleUs := by decide
theorem witness_DecodeHighPhase : (decoding .wHigh 40 frameF 69).phase = .wHigh ∧ (decoding .wHigh 40 frameF 69).mode = .dec ∧
    (decoding .wHigh 40 frameF 69).profile.bitHighOne.toNat ≤ ((69 : Dur) + 1).toNat ∧
    ((68 : Dur) + 1).toNat < (decoding .wHigh 40 frameF 68).profile.bitHighOne.toNat ∧ (decoding .wHigh 39 0 0).bitcnt ≠ 40 ∧
    checksumOk (decoding .wHigh 40 frameF 0).acc = true ∧ checksumOk (decoding .wHigh 40 1 0).acc = false := by decide
theorem witness_AccumulatorHoldsReceivedBits : (List.replicate 40 true).length ≤ 40 ∧ 39 < (List.replicate 40 true).length := by
  decide
theorem witness_ChecksumValidator : checksumOk frameF = true ∧ 7 < 8 := by decide
theorem witness_HostAccessLeavesTheSequencer : (⟨false, 15, 0⟩ : BusReq).we = false ∧ (⟨true, 0, 0⟩ : BusReq).we = true := by decide
theorem witness_IdleTicksChangeOnlyTime : blockP1.phase = .idle ∧ blockP1.pendValid = false := by decide
theorem witness_CachedFrameChanges_written : ∃ t, step (ticking (decoding .wHigh 40 frameF 29) false) = .next t ∧
    resetNext (ticking (decoding .wHigh 40 frameF 29) false) = false ∧ t.blk.frameValid = true ∧
    (decoding .wHigh 40 frameF 29).frameValid = false := ⟨_, rfl, by decide⟩
theorem witness_CachedFrameChanges_cleared : ∃ t, step (withBlock (pending 2)) = .next t ∧
    resetNext (withBlock (pending 2)) = false ∧ (pending 2).frameValid = true ∧ t.blk.frameValid = false := ⟨_, rfl, by decide⟩
theorem witness_ProfileChanges : ∃ t, step (ticking (calibrating 1 .wHigh 7 69) false) = .next t ∧
    resetNext (ticking (calibrating 1 .wHigh 7 69) false) = false ∧ t.blk.profile ≠ (calibrating 1 .wHigh 7 69).profile :=
  ⟨_, rfl, by decide⟩
theorem witness_CalDoneIsSetOnceByACalibration : ∃ t, step (ticking (calibrating 4 .wHigh 7 69) false) = .next t ∧
    resetNext (ticking (calibrating 4 .wHigh 7 69) false) = false ∧ (calibrating 4 .wHigh 7 69).calDone = false ∧
    t.blk.calDone = true := ⟨_, rfl, by decide⟩
theorem witness_CalDoneIsSetOnceByACalibration_kept : (∃ t, step (withBlock (pending 2)) = .next t) ∧
    resetNext (withBlock (pending 2)) = false ∧ (pending 2).calDone = true := ⟨⟨_, rfl⟩, by decide⟩
theorem witness_LifecycleStateChanges_ready : ∃ t, step (ticking (calibrating 1 .wHigh 7 69) false) = .next t ∧
    resetNext (ticking (calibrating 1 .wHigh 7 69) false) = false ∧ (calibrating 1 .wHigh 7 69).lstate ≠ .ready ∧
    t.blk.lstate = .ready := ⟨_, rfl, by decide⟩
theorem witness_LifecycleStateChanges_left : ∃ t, step (withBlock (pending 2)) = .next t ∧
    resetNext (withBlock (pending 2)) = false ∧ (pending 2).lstate = .ready ∧ t.blk.lstate ≠ .ready := ⟨_, rfl, by decide⟩
theorem witness_LifecycleStateChanges_poweredOn : ∃ t, step State.reset = .next t ∧ resetNext State.reset = false ∧
    t.blk.lstate = .poweredOn := ⟨_, rfl, by decide⟩
theorem witness_RecoveringFlagChanges_set : ∃ t, step (withBlock (pending 2)) = .next t ∧
    resetNext (withBlock (pending 2)) = false ∧ (pending 2).recovering = false ∧ t.blk.recovering = true := ⟨_, rfl, by decide⟩
theorem witness_RecoveringFlagChanges_cleared : ∃ t,
    step (ticking { calibrating 2 .wResp 0 199 with recovering := true } true) = .next t ∧
    resetNext (ticking { calibrating 2 .wResp 0 199 with recovering := true } true) = false ∧ t.blk.recovering = false :=
  ⟨_, rfl, by decide⟩
theorem witness_HostErrorFlagsAreSticky : ∃ t, step (accessing blockP1 ⟨true, 0, 6⟩) = .next t ∧
    resetNext (accessing blockP1 ⟨true, 0, 6⟩) = false ∧ blockP1.ill ≠ t.blk.ill := ⟨_, rfl, by decide⟩
theorem witness_NoStartSignalInsideTheInterval : ∃ t, step (withBlock { pending 3 with nowMs := 6004 }) = .next t ∧
    (pending 3).phase ≠ .startLow ∧ t.blk.phase = .startLow := ⟨_, rfl, by decide⟩
theorem witness_LineDriveChanges : ∃ t, step (withBlock { pending 5 with nowMs := 6004 }) = .next t ∧
    resetNext (withBlock { pending 5 with nowMs := 6004 }) = false ∧ (pending 5).lineOut ≠ t.blk.lineOut := ⟨_, rfl, by decide⟩
theorem witness_CalibrationLeavesTheFrame : BlockInv Config.params (calibrating 3 .wHigh 7 69) ∧
    (∃ t, step (ticking (calibrating 3 .wHigh 7 69) false) = .next t) ∧
    resetNext (ticking (calibrating 3 .wHigh 7 69) false) = false ∧ (calibrating 3 .wHigh 7 69).phase ≠ .idle ∧
    (calibrating 3 .wHigh 7 69).mode = .cal := ⟨calibrating_last_inv, ⟨_, rfl⟩, by decide⟩
theorem witness_CommandsEndThroughComplete : ∃ t, step (ticking (decoding .wHigh 40 1 29) false) = .next t ∧
    resetNext (ticking (decoding .wHigh 40 1 29) false) = false ∧ t.blk.err ≠ (decoding .wHigh 40 1 29).err :=
  ⟨_, rfl, by decide⟩
theorem witness_ResetAbandonsEverything : ({ withBlock (decoding .wHigh 40 1 29) with script := [.rst] } : State).script = .rst :: [] :=
  rfl
theorem witness_EveryStepKeepsTheInvariant : BlockInv Config.params (ticking (decoding .wHigh 40 frameF 29) false).blk ∧
    ∃ t, step (ticking (decoding .wHigh 40 frameF 29) false) = .next t := ⟨decoding_last_inv, _, rfl⟩
theorem witness_ProfileBoundsOnEveryRun : BlockInv Config.params (ticking (calibrating 3 .wHigh 7 69) false).blk ∧
    ∃ t, Host.Core.run Sys2Proof.core 1 (ticking (calibrating 3 .wHigh 7 69) false) = .next t ∧ t.blk.calDone = true :=
  ⟨calibrating_last_inv, _, rfl, rfl⟩
theorem witness_EveryCommandCompletesInTime : paramsTwo.Valid ∧ BlockInv paramsTwo (pending 3) ∧ (pending 3).pendValid = true ∧
    commandBound paramsTwo (pending 3) + 1 ≤ (List.replicate 10201 true).length :=
  ⟨paramsTwo_valid, pending_inv 3 (by decide) (by decide), rfl, by rw [List.length_replicate]; decide⟩
/-- The bits of a transmission at the bounds of what a decoder can tell. -/
def edgeBits : List LineBit := { value := false, lead := 80, high := 40 } :: { value := true, lead := 41, high := 110 } ::
  List.replicate 38 { value := true, lead := 41, high := 41 }
theorem witness_DecodeReceivesTheTransmission : paramsTwo.Valid ∧ (decoding .wResp 0 0 0).phase = .wResp ∧
    (decoding .wResp 0 0 0).mode = .dec ∧ (decoding .wResp 0 0 0).op = 3 ∧ (decoding .wResp 0 0 0).pendValid = false ∧
    200 ≤ paramsTwo.ackTimeoutUs ∧ (decoding .wResp 0 0 0).profile.bitLeadLow.toNat + paramsTwo.leadSlackUs ≤ 65535 ∧
    edgeBits.length = 40 ∧ (∀ x ∈ edgeBits, BitDecodable paramsTwo (decoding .wResp 0 0 0).profile x) ∧
    paramsTwo.settleUs + 1 ≤ 41 := by
  refine ⟨paramsTwo_valid, rfl, rfl, rfl, rfl, by decide, by decide, rfl, ?_, by decide⟩
  intro x hx
  simp only [edgeBits, List.mem_cons, List.mem_replicate] at hx
  rcases hx with rfl | rfl | ⟨_, rfl⟩ <;> constructor <;> decide
theorem witness_CalibrationMeasuresTheTransmission :
    let b : Block := { calibrating 4 .wResp 0 0 with scratch := emptyScratch }
    let first : LineBit := { value := false, lead := 200, high := 40 }
    let last : LineBit := { value := true, lead := 1, high := 200 }
    let between := List.replicate 38 ({ value := false, lead := 1, high := 1 } : LineBit)
    paramsTwo.Valid ∧ b.phase = .wResp ∧ b.mode = .cal ∧ b.op = 4 ∧ b.cnt = 0 ∧ b.bitcnt = 0 ∧ b.pendValid = false ∧
    200 ≤ paramsTwo.calTimeoutUs ∧ (∀ x ∈ first :: between ++ [last], PulseMeasurable paramsTwo x) ∧
    (∀ x ∈ between, (paramsTwo.classThreshUs < x.high ↔ paramsTwo.classThreshUs < first.high)) ∧
    (paramsTwo.classThreshUs < last.high ↔ ¬paramsTwo.classThreshUs < first.high) ∧
    between.length + 2 ≤ paramsTwo.calMaxBits := by
  refine ⟨paramsTwo_valid, rfl, rfl, rfl, rfl, rfl, rfl, by decide, ?_, ?_, by decide, by decide⟩
  · intro x hx
    simp only [List.mem_cons, List.cons_append, List.mem_append, List.mem_replicate, List.not_mem_nil, or_false] at hx
    rcases hx with rfl | ⟨_, rfl⟩ | rfl <;> constructor <;> decide
  · intro x hx
    rw [List.mem_replicate] at hx
    rw [hx.2]
    decide
theorem witness_RawFrameReadByTheHost :
    ({ withBlock blockP1 with script := hostGetRaw 0 } : State).script = hostGetRaw 0 ++ [] := rfl
theorem witness_RawFrameReadByTheHost_at_rest :
    ({ withBlock blockP1 with script := hostGetRaw 3 } : State).script = hostGetRaw 3 ++ [] ∧
    blockP1.phase = .idle ∧ blockP1.pendValid = false := ⟨rfl, rfl, rfl⟩
theorem witness_PadLevelOfTheLineDrive :
    Block.reset.lineOe = false ∧ (startSeq .dec Block.reset).lineOe = true ∧ (startSeq .dec Block.reset).lineOut = false ∧
    (decodeDone Block.reset Block.reset).lineOe = true ∧ (decodeDone Block.reset Block.reset).lineOut = true := by decide
theorem witness_SentinelsAreNoReadings :
    (readResultOf 0 0x00 0 0 0).errorCode = 0x00 ∧ (readResultOf 0 0x02 0 0 0).errorCode ≠ 0x00 := by decide

end Sys2Proof.Tests
end

section
/-! PROOF. The invariant of every block a run reaches, in three parts: what the block stores, the latch, and what a
running sequence has done so far. -/
namespace Sys2Proof.Machine

/-- The part of the invariant on which the sequencer's phase has no bearing. -/
structure StoredInv (p : Params) (b : Block) : Prop where
  bits        : b.bitcnt.toNat ≤ max 40 p.calMaxBits
  profileOk   : b.calDone = true → ProfileOk p b.profile
  cachedFrame : b.frameValid = true → checksumOk b.frame = true ∧ b.calDone = true
  code        : legalCode b.err = true
  readyCal    : b.lstate = .ready → b.calDone = true

/-- What holds of a running calibration. -/
structure CalRun (p : Params) (b : Block) : Prop where
  op        : 1 ≤ b.op.toNat ∧ b.op.toNat ≤ 4
  notSettle : b.phase ≠ .settle
  bits      : b.bitcnt.toNat < p.calMaxBits
  scratch   : ScratchOk p b

/-- What holds of a running decode, START's low hold among them. -/
structure DecRun (b : Block) : Prop where
  op       : b.op = 3 ∨ (b.op = 5 ∧ b.phase = .startLow)
  calDone  : b.op = 3 → b.calDone = true
  bitsLow  : b.phase = .wLead ∨ b.phase = .settle → b.bitcnt.toNat ≤ 39
  bitsHigh : b.phase = .wHigh → 1 ≤ b.bitcnt.toNat ∧ b.bitcnt.toNat ≤ 40
  accHigh  : b.op = 3 → b.acc.toNat < 2 ^ b.bitcnt.toNat

/-- The part of the invariant about a running sequence, of either mode. -/
structure RunInv (p : Params) (b : Block) : Prop where
  count     : b.cnt.toNat < phaseLimit p b
  drivenLow : b.phase = .startLow → b.lineOe = true ∧ b.lineOut = false
  released  : sampling b.phase = true → b.lineOe = false
  noBits    : beforeBits b.phase = true → b.bitcnt = 0
  notDone   : b.done = false
  cal       : b.mode = .cal → CalRun p b
  dec       : b.mode = .dec → DecRun b

/-- The invariant bounds what the block stores. -/
theorem BlockInv.stored {p : Params} {b : Block} (h : BlockInv p b) : StoredInv p b := { h with }

/-- The invariant of a block whose sequencer is not idle is that of its mode's sequence. -/
theorem BlockInv.run {p : Params} {b : Block} (h : BlockInv p b) (hne : b.phase ≠ .idle) : RunInv p b where
  count := h.count hne
  drivenLow := h.drivenLow
  released := h.released
  noBits := h.noBits
  notDone := h.notDone hne
  cal hm := {
    op := h.calOp hne hm
    notSettle := fun hs => by simpa [hm] using h.settleDec hs
    bits := h.calBits hne hm
    scratch := h.scratchOk hne hm }
  dec hm := {
    op := h.decOp hne hm
    calDone := h.decCal hne hm
    bitsLow := (h.decBits hm).1
    bitsHigh := (h.decBits hm).2
    accHigh := h.accHigh hne hm }

/-- The parts make the whole: of an idle block nothing is asked but the time, the latch and what it stores. -/
theorem blockInv_of_parts {p : Params} {b : Block} (prescaler : b.preCnt < p.clksPerUs) (micros : b.usCnt.toNat ≤ 999)
    (latch : b.pendValid = true → b.phase = .idle ∧ 1 ≤ b.pendCmd.toNat ∧ b.pendCmd.toNat ≤ 5)
    (stored : StoredInv p b) (run : b.phase ≠ .idle → RunInv p b) : BlockInv p b where
  prescaler := prescaler
  micros := micros
  latch := latch
  calOp hne hm := ((run hne).cal hm).op
  decOp hne hm := ((run hne).dec hm).op
  decCal hne hm := ((run hne).dec hm).calDone
  settleDec hs := by
    cases hm : b.mode with
    | dec => rfl
    | cal => exact absurd hs ((run (by simp [hs])).cal hm).notSettle
  count hne := (run hne).count
  drivenLow hs := (run (by simp [hs])).drivenLow hs
  released hs := (run (by rintro hi; simp [hi, sampling] at hs)).released hs
  noBits hs := (run (by rintro hi; simp [hi, beforeBits] at hs)).noBits hs
  decBits hm := ⟨fun hs => ((run (by rcases hs with hs | hs <;> simp [hs])).dec hm).bitsLow hs,
    fun hs => ((run (by simp [hs])).dec hm).bitsHigh hs⟩
  calBits hne hm := ((run hne).cal hm).bits
  bits := stored.bits
  profileOk := stored.profileOk
  scratchOk hne hm := ((run hne).cal hm).scratch
  accHigh hne hm := ((run hne).dec hm).accHigh
  cachedFrame := stored.cachedFrame
  code := stored.code
  readyCal := stored.readyCal
  notDone hne := (run hne).notDone

/-! ## Steps outside the sequencer -/

/-- The parameters of this hardware meet the constraints of R8 to R16. -/
theorem configParams_valid : Config.params.Valid := by
  constructor
  case clksPerUs => exact Nat.le_add_left 2 _
  all_goals decide

/-- A time advance keeps the invariant (spec/40_pulse_width.md R133). -/
theorem timeAdvance_keeps_inv {p : Params} (hp : p.Valid) {r w : Block} (hr : r.usCnt.toNat ≤ 999) (h : BlockInv p w) :
    BlockInv p (timeAdvance r w) := by
  have hclk : 0 < p.clksPerUs := Nat.lt_of_lt_of_le Nat.two_pos hp.clksPerUs
  unfold timeAdvance
  split_ifs with hu
  · exact { h with
      prescaler := hclk
      micros := Nat.zero_le _
      scratchOk := fun hne hm => { h.scratchOk hne hm with } }
  · exact { h with
      prescaler := hclk
      micros := by bv_omega
      scratchOk := fun hne hm => { h.scratchOk hne hm with } }

/-- A word that passes the checks of R210 names one of the five commands. -/
theorem command_code_bounds {v : Word} (h0 : v ≠ 0x00000000)
    (hl : ¬(v.extractLsb' 3 29 ≠ 0 ∨ v.extractLsb' 0 3 = 6 ∨ v.extractLsb' 0 3 = 7)) :
    1 ≤ (v.extractLsb' 0 3).toNat ∧ (v.extractLsb' 0 3).toNat ≤ 5 := by
  obtain ⟨hrsv, h6, h7⟩ : v.extractLsb' 3 29 = 0 ∧ v.extractLsb' 0 3 ≠ 6 ∧ v.extractLsb' 0 3 ≠ 7 := by simpa using hl
  have hz : v.extractLsb' 0 3 ≠ 0 := by
    intro hop
    apply h0
    rw [cmd_word_split v, hrsv, hop]
    rfl
  revert hz h6 h7
  generalize v.extractLsb' 0 3 = k
  revert k
  decide

/-- A host access keeps the invariant: it latches a legal command of an idle block, or sets or clears a flag. -/
theorem accessBlock_keeps_inv {p : Params} (r : BusReq) {b : Block} (h : BlockInv p b) : BlockInv p (accessBlock r b) := by
  have flags (o i : Bool) : BlockInv p { b with ovr := o, ill := i } :=
    { h with scratchOk := fun hne hm => { h.scratchOk hne hm with } }
  unfold accessBlock cmdWrite
  split_ifs with _ h0 hl hb
  · exact h
  · exact flags b.ovr true
  · exact flags true b.ill
  · have hi : b.phase = .idle := by simp [busy] at hb; exact hb.2
    exact { h with
      latch := fun _ => ⟨hi, command_code_bounds h0 hl⟩
      scratchOk := fun hne => absurd hi hne }
  · exact flags _ _
  · exact h

end Sys2Proof.Machine
end

section
/-! PROOF. The sequencer step keeps the invariant: what it stores, and what the sequence it leaves running has done. -/
namespace Sys2Proof.Machine

/-! ## The bounds of a running sequence -/

/-- A counter below a 16-bit bound counts one more without wrapping. -/
theorem dur_succ_toNat {c : Dur} {n : Nat} (h : c.toNat < n) (hn : n ≤ 65535) : (c + 1).toNat = c.toNat + 1 := by
  bv_omega

/-- The pulse count goes up by one without wrapping. -/
theorem bitcnt_succ_toNat {c : BitVec 6} {n : Nat} (h : c.toNat < n) (hn : n ≤ 63) : (c + 1).toNat = c.toNat + 1 := by
  bv_omega

/-- Every wait of a calibration has the one bound of R138. -/
theorem phaseLimit_cal {p : Params} {b : Block} (hm : b.mode = .cal) (hl : b.phase ≠ .startLow) (hs : b.phase ≠ .settle) :
    phaseLimit p b = p.calTimeoutUs := by
  unfold phaseLimit
  split
  · exact absurd ‹_› hl
  · exact absurd ‹_› hs
  · simp [waitBound, hm]

/-- No phase ends at count 0: a decode's bounds are positive by the profile's. -/
theorem phaseLimit_pos {p : Params} (hp : p.Valid) {b : Block}
    (hd : b.mode = .dec → b.phase ≠ .startLow → ProfileOk p b.profile) : 0 < phaseLimit p b := by
  have := hp.startLowUs_lo
  have := hp.settleUs_lo
  have := hp.ackTimeoutUs_lo
  have := hp.calTimeoutUs_lo
  unfold phaseLimit waitBound
  split
  · omega
  · omega
  · split
    · omega
    · rename_i hl _ _ hm
      have prof := hd hm hl
      have := prof.lead_pos
      have := prof.one_gt
      split <;> omega

/-- A decode past the low hold is a READ's. -/
theorem DecRun.isRead {b : Block} (h : DecRun b) (hl : b.phase ≠ .startLow) : b.op = 3 := by
  rcases h.op with ho | ⟨_, hs⟩
  · exact ho
  · exact absurd hs hl

/-- A wait of a calibration that ends has measured a duration (spec/42_calibrator.md R166). -/
theorem RunInv.measured {p : Params} (hp : p.Valid) {b : Block} (h : RunInv p b) (hm : b.mode = .cal)
    (hl : b.phase ≠ .startLow) : Measured p (b.cnt + 1) := by
  have hc := h.count
  rw [phaseLimit_cal hm hl (h.cal hm).notSettle] at hc
  have := dur_succ_toNat hc hp.calTimeoutUs_hi
  constructor <;> omega

/-! ## The scratch of a calibration -/

/-- A calibration begins with a scratch that claims nothing (spec/42_calibrator.md R160). -/
theorem scratchOk_startSeq (p : Params) (w : Block) : ScratchOk p (startSeq .cal w) := by
  constructor <;> simp [startSeq, calEntry]

/-- The durations of the scratch after a high phase are of their classes (spec/42_calibrator.md R162). -/
theorem scratchAfterHigh_classes {p : Params} {b : Block} {d : Dur} (h : ScratchOk p b) (hd : Measured p d) :
    let sc := scratchAfterHigh p d b.scratch
    (sc.seen0 = true → sc.h0.toNat ≤ p.classThreshUs) ∧
    (sc.seen1 = true → p.classThreshUs < sc.h1.toNat ∧ sc.h1.toNat ≤ p.calTimeoutUs) := by
  cases hc : classOne p d
  · have hd0 : d.toNat ≤ p.classThreshUs := by simpa [classOne] using hc
    refine ⟨fun _ => ?_, by simpa [scratchAfterHigh, hc] using h.one⟩
    cases h0 : b.scratch.seen0
    · simpa [scratchAfterHigh, hc, h0] using hd0
    · simpa [scratchAfterHigh, hc, h0] using h.zero h0
  · have hd1 : p.classThreshUs < d.toNat := by simpa [classOne] using hc
    refine ⟨by simpa [scratchAfterHigh, hc] using h.zero, fun _ => ?_⟩
    cases h1 : b.scratch.seen1
    · simpa [scratchAfterHigh, hc, h1] using ⟨hd1, hd.2⟩
    · simpa [scratchAfterHigh, hc, h1] using h.one h1

/-- The profile that a calibration writes keeps its bounds (spec/10_state.md R72; spec/42_calibrator.md R166). -/
theorem profileWritten_ok {p : Params} (hp : p.Valid) {b : Block} (h : RunInv p b) (hph : b.phase = .wHigh)
    (hm : b.mode = .cal) (h0 : (scratchAfterHigh p (b.cnt + 1) b.scratch).seen0 = true)
    (h1 : (scratchAfterHigh p (b.cnt + 1) b.scratch).seen1 = true) :
    ProfileOk p (profileWritten (scratchAfterHigh p (b.cnt + 1) b.scratch) b).profile := by
  have sc := (h.cal hm).scratch
  obtain ⟨hz, ho⟩ := scratchAfterHigh_classes sc (h.measured hp hm (by simp [hph]))
  exact {
    zero_le := hz h0
    one_gt := (ho h1).1
    one_le := (ho h1).2
    lead_pos := (sc.lead (.inl hph)).1
    lead_le := (sc.lead (.inl hph)).2
    ackl_pos := (sc.ackl (.inr (.inr hph))).1
    ackl_le := (sc.ackl (.inr (.inr hph))).2
    ackh_pos := (sc.ackh (.inr hph)).1
    ackh_le := (sc.ackh (.inr hph)).2 }

/-! ## What the sequencer step stores -/

/-- A failure ends its sequence. -/
@[simp] theorem failedAt_phase (g : BitVec 8) (b : Block) : (failedAt g b).phase = .idle := by
  unfold failedAt
  split <;> rfl

/-- A failure leaves the latch alone. -/
@[simp] theorem failedAt_pendValid (g : BitVec 8) (b : Block) : (failedAt g b).pendValid = b.pendValid := by
  unfold failedAt
  split <;> rfl

/-- A completion keeps what is stored: its code is one of R105's. -/
theorem StoredInv.complete {p : Params} {b : Block} (h : StoredInv p b) (c : ResultCode) : StoredInv p (complete c b) :=
  { h with code := legalCode_resultCode c }

/-- A failure keeps what is stored: it does not store READY. -/
theorem StoredInv.failedAt {p : Params} {b : Block} (h : StoredInv p b) (g : Stage) :
    StoredInv p (failedAt (stageCode g) b) := by
  unfold Machine.failedAt
  split
  · exact { h with code := legalCode_resultCode (.terr g) }
  · refine { h with code := legalCode_resultCode (.calErr g), readyCal := ?_ }
    dsimp only
    split_ifs
    · exact nofun
    · exact h.readyCal

/-- A start signal keeps what is stored: it counts no bit. -/
theorem StoredInv.startSeq {p : Params} {b : Block} (h : StoredInv p b) (m : Mode) : StoredInv p (startSeq m b) := by
  cases m <;> exact { h with bits := Nat.zero_le _ }

/-- A dispatch keeps what is stored: it may store UNINITIALIZED and drop the frame. -/
theorem StoredInv.dispatched {p : Params} {b c : Block} {k : BitVec 3} (h : StoredInv p b)
    (hc : DispatchOutcome p b k c) : StoredInv p c := by
  have hw : StoredInv p (dispatchWrites k b) := { h with }
  cases hc with
  | powerOn k rc fv _ hfv =>
    have hkept : fv = true → b.frameValid = true := by rcases hfv with ⟨_, _, _, rfl⟩ | ⟨_, _, _, rfl⟩ <;> simp
    exact { h with
      cachedFrame := fun hf => h.cachedFrame (hkept hf)
      code := legalCode_resultCode .powerOn
      readyCal := fun hr => LState.noConfusion hr }
  | busy => exact hw.complete _
  | cached => exact { h with code := legalCode_resultCode .ok }
  | calibrate => exact hw.startSeq _
  | decode => exact { hw.startSeq .dec with }
  | start => exact hw.startSeq _
  | noCommand => exact hw

/-- The end of a calibration's high phase keeps what is stored: the profile it writes keeps its bounds. -/
theorem StoredInv.calHighEnds {p : Params} (hp : p.Valid) {b c : Block} (h : StoredInv p b) (run : RunInv p b)
    (hph : b.phase = .wHigh) (hm : b.mode = .cal)
    (hc : CalHighOutcome p b (scratchAfterHigh p (b.cnt + 1) b.scratch) c) : StoredInv p c := by
  have hbits := (run.cal hm).bits
  have hcount : StoredInv p (pulseCounted (scratchAfterHigh p (b.cnt + 1) b.scratch) b) := { h with
    bits := by
      have := bitcnt_succ_toNat hbits hp.calMaxBits_hi
      simp only [pulseCounted]
      omega }
  have hprof (h0 : (scratchAfterHigh p (b.cnt + 1) b.scratch).seen0 = true)
      (h1 : (scratchAfterHigh p (b.cnt + 1) b.scratch).seen1 = true) (ls : LState) (rc cd : Bool) :
      StoredInv p { profileWritten (scratchAfterHigh p (b.cnt + 1) b.scratch) b with
        lstate := ls, recovering := rc, cached := cd } :=
    { hcount with
      profileOk := fun _ => profileWritten_ok hp run hph hm h0 h1
      cachedFrame := fun hf => ⟨(h.cachedFrame hf).1, rfl⟩
      readyCal := fun _ => rfl }
  cases hc with
  | ready h0 h1 => exact (hprof h0 h1 _ _ _).complete _
  | measured h0 h1 => exact (hprof h0 h1 _ _ _).complete _
  | readCached h0 h1 => exact (hprof h0 h1 _ _ _).complete _
  | readBusy h0 h1 => exact (hprof h0 h1 _ _ _).complete _
  | readDecode h0 h1 => exact { (hprof h0 h1 .ready false b.cached).startSeq .dec with }
  | noCommand h0 h1 => exact hprof h0 h1 _ _ _
  | failed => exact hcount.failedAt .bitHigh
  | next => exact { hcount with }

/-- A sequencer step keeps what is stored. -/
theorem seqOutcome_keeps_stored {p : Params} (hp : p.Valid) {lvl : Bool} {b c : Block} (h : BlockInv p b)
    (hc : SeqOutcome p lvl b c) : StoredInv p c := by
  have st := h.stored
  cases hc with
  | rest => exact st
  | dispatched c _ _ hd => exact st.dispatched hd
  | startEnds => exact { st with code := legalCode_resultCode .ok }
  | timedOut => exact st.failedAt _
  | sampled hph _ =>
    have := ((h.run (by simp [hph])).dec (h.settleDec hph)).bitsLow (.inr hph)
    have := bitcnt_succ_toNat (Nat.lt_succ_of_le this) (by omega)
    exact { st with bits := by dsimp only; omega }
  | frameOk hph hm _ _ hsum =>
    have dec := (h.run (by simp [hph])).dec hm
    exact { st with
      cachedFrame := fun _ => ⟨hsum, dec.calDone (dec.isRead (by simp [hph]))⟩
      code := legalCode_resultCode .ok }
  | frameBad => exact { st with code := legalCode_resultCode .checksumError }
  | calHighEnds c hph hm _ hh => exact st.calHighEnds hp (h.run (by simp [hph])) hph hm hh
  | _ => exact { st with }

/-! ## What the sequencer step leaves running -/

/-- A start signal of a calibration begins a run that meets the invariant (spec/41_initiator.md R151). -/
theorem runInv_startSeq_cal {p : Params} (hp : p.Valid) {w : Block} (hd : w.done = false)
    (hop : 1 ≤ w.op.toNat ∧ w.op.toNat ≤ 4) : RunInv p (startSeq .cal w) where
  count := phaseLimit_pos hp nofun
  drivenLow _ := ⟨rfl, rfl⟩
  released := nofun
  noBits _ := rfl
  notDone := hd
  dec := nofun
  cal _ := {
    op := hop
    notSettle := nofun
    bits := Nat.lt_of_lt_of_le Nat.two_pos hp.calMaxBits_lo
    scratch := scratchOk_startSeq p w }

/-- A start signal of READ's decode or of START begins a run that meets the invariant (spec/41_initiator.md R151, R156). -/
theorem runInv_startSeq_dec {p : Params} (hp : p.Valid) {w : Block} (hd : w.done = false)
    (hop : (w.op = 3 ∧ w.calDone = true ∧ w.acc = 0) ∨ w.op = 5) : RunInv p (startSeq .dec w) where
  count := phaseLimit_pos hp fun _ hl => absurd rfl hl
  drivenLow _ := ⟨rfl, rfl⟩
  released := nofun
  noBits _ := rfl
  notDone := hd
  cal := nofun
  dec _ := {
    op := hop.imp And.left fun ho => ⟨ho, rfl⟩
    calDone := fun ho => by
      rcases hop with ⟨_, hcal, _⟩ | h5
      · exact hcal
      · exact absurd (h5.symm.trans ho) (by decide)
    bitsLow := by simp [startSeq]
    bitsHigh := by simp [startSeq]
    accHigh := fun ho => by
      rcases hop with ⟨_, _, hacc⟩ | h5
      · simp [startSeq, hacc]
      · exact absurd (h5.symm.trans ho) (by decide) }

/-- A dispatch that leaves the sequencer running leaves it at the beginning of a start signal. -/
theorem runInv_dispatched {p : Params} (hp : p.Valid) {b c : Block} {k : BitVec 3} (hi : b.phase = .idle)
    (hk : 1 ≤ k.toNat ∧ k.toNat ≤ 5) (hc : DispatchOutcome p b k c) (hne : c.phase ≠ .idle) : RunInv p c := by
  cases hc with
  | calibrate k _ hk4 =>
    refine runInv_startSeq_cal hp rfl ?_
    rcases hk4 with rfl | rfl | rfl | rfl <;> simp
  | decode _ hcal => exact runInv_startSeq_dec (w := { dispatchWrites 3 b with acc := 0 }) hp rfl (.inl ⟨rfl, hcal, rfl⟩)
  | start => exact runInv_startSeq_dec hp rfl (.inr rfl)
  | noCommand => exact absurd hi hne
  | _ => exact absurd rfl hne

/-- A sequence that goes on counting in its phase keeps the invariant. -/
theorem RunInv.counted {p : Params} (hp : p.Valid) {b : Block} (h : RunInv p b)
    (hlow : b.phase = .startLow → (b.cnt + 1).toNat ≠ p.startLowUs)
    (hset : b.phase = .settle → (b.cnt + 1).toNat ≠ p.settleUs)
    (hwait : b.phase ≠ .startLow → b.phase ≠ .settle → (b.cnt + 1).toNat < waitBound p b) :
    RunInv p { b with cnt := b.cnt + 1 } := by
  have hlimit : (b.cnt + 1).toNat < phaseLimit p b := by
    have hc := h.count
    unfold phaseLimit at hc ⊢
    split at hc
    · have := dur_succ_toNat hc (by have := hp.startLowUs_hi; omega)
      have := hlow ‹_›
      omega
    · have := dur_succ_toNat hc hp.settleUs_hi
      have := hset ‹_›
      omega
    · exact hwait ‹_› ‹_›
  exact { h with
    count := hlimit
    cal := fun hm => { h.cal hm with scratch := { (h.cal hm).scratch with } }
    dec := fun hm => { h.dec hm with } }

/-- A phase that samples the line is entered with the counter at 0, and the invariant holds if the mode's part does. -/
theorem runInv_entered {p : Params} (hp : p.Valid) {c : Block} (hs : sampling c.phase = true) (hcnt : c.cnt = 0)
    (hoe : c.lineOe = false) (hd : c.done = false) (hb : beforeBits c.phase = true → c.bitcnt = 0)
    (prof : c.calDone = true → ProfileOk p c.profile) (cal : c.mode = .cal → CalRun p c) (dec : c.mode = .dec → DecRun c) :
    RunInv p c where
  count := by
    rw [hcnt]
    exact phaseLimit_pos hp fun hm hl => prof ((dec hm).calDone ((dec hm).isRead hl))
  drivenLow hl := by simp [hl, sampling] at hs
  released _ := hoe
  noBits := hb
  notDone := hd
  cal := cal
  dec := dec

/-- A sample leaves nothing above the bits received (spec/43_decoder.md R183). -/
theorem shiftIn_lt {x : Frame} {n : Nat} (l : Bool) (h : x.toNat < 2 ^ n) : (shiftIn x l).toNat < 2 ^ (n + 1) := by
  rw [shiftIn_toNat, Nat.pow_succ]
  have : l.toNat ≤ 1 := Bool.toNat_le l
  exact Nat.lt_of_le_of_lt (Nat.mod_le _ _) (by omega)

/-- The end of a calibration's high phase that leaves the sequencer running leaves it at the next pulse, or at the start
signal of READ's decode. -/
theorem runInv_calHighEnds {p : Params} (hp : p.Valid) {b c : Block} (h : BlockInv p b)
    (hph : b.phase = .wHigh) (hm : b.mode = .cal)
    (hc : CalHighOutcome p b (scratchAfterHigh p (b.cnt + 1) b.scratch) c) (hne : c.phase ≠ .idle) : RunInv p c := by
  have run := h.run (by simp [hph])
  have cal := run.cal hm
  cases hc with
  | readDecode _ _ ho =>
    exact runInv_startSeq_dec (w := { profileWritten _ b with lstate := .ready, recovering := false, acc := 0 }) hp
      run.notDone (.inl ⟨ho, rfl, rfl⟩)
  | noCommand _ _ h1 h2 h3 h4 =>
    have := cal.op
    bv_omega
  | failed => exact absurd (failedAt_phase _ _) hne
  | next hnot hmax =>
    obtain ⟨hz, ho⟩ := scratchAfterHigh_classes cal.scratch (run.measured hp hm (by simp [hph]))
    have hlt := cal.bits
    have := bitcnt_succ_toNat hlt hp.calMaxBits_hi
    refine runInv_entered hp rfl rfl (run.released (by simp [hph, sampling])) run.notDone nofun h.profileOk
      (fun _ => ?_) (fun hd => by simp [pulseCounted, hm] at hd)
    exact {
      op := cal.op
      notSettle := nofun
      bits := by simp only [pulseCounted]; omega
      scratch := {
        ackl := fun _ => cal.scratch.ackl (.inr (.inr hph))
        ackh := fun _ => cal.scratch.ackh (.inr hph)
        lead := fun _ => cal.scratch.lead (.inl hph)
        zero := hz
        one := ho
        notAll := hnot } }
  | _ => exact absurd rfl hne

/-- A phase of the handshake that ends, the low hold among them, leads to one in which no bit is counted yet
(spec/41_initiator.md R152 to R155). -/
theorem runInv_handshake {p : Params} (hp : p.Valid) {b : Block} (h : BlockInv p b) (hb : beforeBits b.phase = true)
    {ph : Phase} {oe ts : Bool} {ls : Word} {sc : Scratch} (hs : sampling ph = true) (hns : ph ≠ .settle)
    (hnh : ph ≠ .wHigh) (hoe : oe = false) (hread : b.mode = .dec → b.op = 3)
    (hsc : b.mode = .cal → ScratchOk p b → ScratchOk p { b with
      lineOe := oe, lastStartMs := ls, tsValid := ts, scratch := sc, phase := ph, cnt := 0 }) :
    RunInv p { b with lineOe := oe, lastStartMs := ls, tsValid := ts, scratch := sc, phase := ph, cnt := 0 } := by
  have run := h.run (by intro hi; simp [hi, beforeBits] at hb)
  have hzero := run.noBits hb
  refine runInv_entered hp hs rfl hoe run.notDone (fun _ => hzero) h.profileOk (fun hm => ?_) (fun hm => ?_)
  · have cal := run.cal hm
    exact { cal with notSettle := hns, scratch := hsc hm cal.scratch }
  · exact { run.dec hm with
      op := .inl (hread hm)
      bitsLow := by simp [hzero]
      bitsHigh := fun hw => absurd hw hnh }

/-- The waits for the response and for the low half of the acknowledgement ask of the scratch only its classes
(spec/41_initiator.md R152, R153). -/
theorem scratchOk_before_ack {p : Params} {b c : Block} (h : ScratchOk p b) (hsc : c.scratch = b.scratch)
    (hph : c.phase = .wResp ∨ c.phase = .wAckL) : ScratchOk p c where
  ackl := by rcases hph with hph | hph <;> simp [hph]
  ackh := by rcases hph with hph | hph <;> simp [hph]
  lead := by rcases hph with hph | hph <;> simp [hph]
  zero := hsc ▸ h.zero
  one := hsc ▸ h.one
  notAll := hsc ▸ h.notAll

/-- The end of the acknowledgement's low half keeps the invariant (spec/41_initiator.md R154). -/
theorem runInv_ackLowEnds {p : Params} (hp : p.Valid) {b : Block} (h : BlockInv p b) (hph : b.phase = .wAckL) :
    RunInv p { b with
      scratch := if b.mode = .cal then { b.scratch with ackl := b.cnt + 1 } else b.scratch, phase := .wAckH, cnt := 0 } := by
  have run := h.run (by simp [hph])
  refine runInv_handshake hp h (by simp [hph, beforeBits]) rfl nofun nofun (run.released (by simp [hph, sampling]))
    (fun hm => (run.dec hm).isRead (by simp [hph])) (fun hm old => ?_)
  rw [if_pos hm]
  exact { old with ackl := fun _ => run.measured hp hm (by simp [hph]), ackh := by simp, lead := by simp }

/-- The end of the acknowledgement's high half keeps the invariant (spec/41_initiator.md R155). -/
theorem runInv_ackHighEnds {p : Params} (hp : p.Valid) {b : Block} (h : BlockInv p b) (hph : b.phase = .wAckH) :
    RunInv p { b with
      scratch := if b.mode = .cal then { b.scratch with ackh := b.cnt + 1 } else b.scratch, phase := .wLead, cnt := 0 } := by
  have run := h.run (by simp [hph])
  refine runInv_handshake hp h (by simp [hph, beforeBits]) rfl nofun nofun (run.released (by simp [hph, sampling]))
    (fun hm => (run.dec hm).isRead (by simp [hph])) (fun hm old => ?_)
  rw [if_pos hm]
  exact { old with
    ackl := fun _ => old.ackl (.inl hph)
    ackh := fun _ => run.measured hp hm (by simp [hph])
    lead := by simp [run.noBits (by simp [hph, beforeBits])] }

/-- The end of a calibration's lead-in keeps the invariant (spec/42_calibrator.md R161). -/
theorem runInv_calLeadEnds {p : Params} (hp : p.Valid) {b : Block} (h : BlockInv p b) (hph : b.phase = .wLead)
    (hm : b.mode = .cal) : RunInv p { b with
      scratch := if b.bitcnt = 0 then { b.scratch with lead := b.cnt + 1 } else b.scratch, phase := .wHigh, cnt := 0 } := by
  have run := h.run (by simp [hph])
  have cal := run.cal hm
  have old := cal.scratch
  refine runInv_entered hp rfl rfl (run.released (by simp [hph, sampling])) run.notDone nofun h.profileOk
    (fun _ => { cal with notSettle := nofun, scratch := ?_ }) (fun hd => by simp [hm] at hd)
  split_ifs with hz
  · exact { old with
      ackl := fun _ => old.ackl (.inr (.inl hph))
      ackh := fun _ => old.ackh (.inl hph)
      lead := fun _ => run.measured hp hm (by simp [hph]) }
  · exact { old with
      ackl := fun _ => old.ackl (.inr (.inl hph))
      ackh := fun _ => old.ackh (.inl hph)
      lead := fun _ => old.lead (.inr ⟨hph, hz⟩) }

/-- A bit of a decode passes from its lead-in over its sample to its high phase, and to the next bit: each phase keeps the
invariant if the counted bits and the accumulator fit it (spec/43_decoder.md R181 to R184). -/
theorem runInv_decodeBit {p : Params} (hp : p.Valid) {b : Block} (h : BlockInv p b) (hm : b.mode = .dec)
    (hb : b.phase = .wLead ∨ b.phase = .settle ∨ b.phase = .wHigh) {ph : Phase} {n : BitVec 6} {a : Frame}
    (hph : ph = .wLead ∨ ph = .settle ∨ ph = .wHigh) (hlow : ph = .wLead ∨ ph = .settle → n.toNat ≤ 39)
    (hhigh : ph = .wHigh → 1 ≤ n.toNat ∧ n.toNat ≤ 40) (hacc : b.acc.toNat < 2 ^ b.bitcnt.toNat → a.toNat < 2 ^ n.toNat) :
    RunInv p { b with acc := a, bitcnt := n, phase := ph, cnt := 0 } := by
  have hne : b.phase ≠ .idle := by rcases hb with hb | hb | hb <;> simp [hb]
  have hl : b.phase ≠ .startLow := by rcases hb with hb | hb | hb <;> simp [hb]
  have hs : sampling b.phase = true := by rcases hb with hb | hb | hb <;> simp [hb, sampling]
  have run := h.run hne
  have dec := run.dec hm
  refine runInv_entered hp ?_ rfl (run.released hs) run.notDone ?_ h.profileOk (fun hc => by simp [hm] at hc) fun _ => ?_
  · rcases hph with rfl | rfl | rfl <;> rfl
  · rcases hph with rfl | rfl | rfl <;> exact nofun
  · exact { dec with
      op := .inl (dec.isRead hl)
      bitsLow := hlow
      bitsHigh := hhigh
      accHigh := fun ho => hacc (dec.accHigh ho) }

/-- A sequencer step that leaves the sequencer running leaves it with the invariant. -/
theorem seqOutcome_keeps_run {p : Params} (hp : p.Valid) {lvl : Bool} {b c : Block} (h : BlockInv p b)
    (hc : SeqOutcome p lvl b c) (hne : c.phase ≠ .idle) : RunInv p c := by
  cases hc with
  | rest hi => exact absurd hi hne
  | dispatched c hi hv hd => exact runInv_dispatched hp hi (h.latch hv).2 hd hne
  | counted hb hlow hset hwait => exact (h.run hb).counted hp hlow hset fun hl hs => (hwait hl hs).2
  | timedOut => exact absurd (failedAt_phase _ _) hne
  | released hph _ ho =>
    exact runInv_handshake hp h (by simp [hph, beforeBits]) rfl nofun nofun rfl
      (fun hm => ((h.run (by simp [hph])).dec hm).op.resolve_right fun h5 => ho h5.1)
      (fun _ old => scratchOk_before_ack old rfl (.inl rfl))
  | respEnds hph =>
    exact runInv_handshake hp h (by simp [hph, beforeBits]) rfl nofun nofun (h.released (by simp [hph, sampling]))
      (fun hm => ((h.run (by simp [hph])).dec hm).isRead (by simp [hph]))
      (fun _ old => scratchOk_before_ack old rfl (.inr rfl))
  | ackLowEnds _ hph _ hsc => exact hsc ▸ runInv_ackLowEnds hp h hph
  | ackHighEnds _ hph _ hsc => exact hsc ▸ runInv_ackHighEnds hp h hph
  | calLeadEnds _ hph hm _ hsc => exact hsc ▸ runInv_calLeadEnds hp h hph hm
  | decLeadEnds hph hm =>
    exact runInv_decodeBit hp h hm (.inl hph) (.inr (.inl rfl)) (fun _ => (h.decBits hm).1 (.inl hph)) nofun id
  | sampled hph =>
    have hm := h.settleDec hph
    have hlow := (h.decBits hm).1 (.inr hph)
    have hsucc := bitcnt_succ_toNat (Nat.lt_succ_of_le hlow) (by omega)
    refine runInv_decodeBit hp h hm (.inr (.inl hph)) (.inr (.inr rfl)) (by simp) (fun _ => by omega) fun hacc => ?_
    rw [hsucc]
    exact shiftIn_lt lvl hacc
  | decHighEnds hph hm _ hn =>
    have hhigh := (h.decBits hm).2 hph
    exact runInv_decodeBit hp h hm (.inr (.inr hph)) (.inl rfl) (fun _ => by bv_omega) nofun id
  | calHighEnds c hph hm _ hh => exact runInv_calHighEnds hp h hph hm hh hne
  | _ => exact absurd rfl hne

/-- A dispatch empties the latch (spec/44_lifecycle.md R211). -/
theorem dispatchOutcome_pendValid {p : Params} {b c : Block} {k : BitVec 3} (hc : DispatchOutcome p b k c) :
    c.pendValid = false := by
  cases hc <;> rfl

/-- After a tick no command is pending: with the sequencer idle it is dispatched, and otherwise none was. -/
theorem seqOutcome_pendValid {p : Params} {lvl : Bool} {b c : Block} (h : BlockInv p b) (hc : SeqOutcome p lvl b c) :
    c.pendValid = false := by
  have hrun (hne : b.phase ≠ .idle) : b.pendValid = false := by
    cases hv : b.pendValid with
    | false => rfl
    | true => exact absurd (h.latch hv).1 hne
  cases hc with
  | rest _ hv => exact hv
  | dispatched c _ _ hd => exact dispatchOutcome_pendValid hd
  | counted hne => exact hrun hne
  | timedOut hs => rw [failedAt_pendValid]; exact hrun (by rintro hi; simp [hi, sampling] at hs)
  | calHighEnds c hph _ _ hh =>
    have hv := hrun (by simp [hph])
    cases hh with
    | failed => rwa [failedAt_pendValid]
    | _ => exact hv
  | _ => exact hrun (by simp [*])

/-- The sequencer step keeps the invariant, for every record of parameters that meets R8 to R16. -/
theorem seqStep_keeps_inv {p : Params} (hp : p.Valid) (lvl : Bool) {b : Block} (h : BlockInv p b) :
    BlockInv p (seqStep p lvl b) := by
  have hc := seqStep_outcome p lvl b
  obtain ⟨hpre, hus, _⟩ := seqStep_frame p lvl b
  refine blockInv_of_parts (hpre ▸ h.prescaler) (hus ▸ h.micros) (fun hv => ?_) (seqOutcome_keeps_stored hp h hc)
    (seqOutcome_keeps_run hp h hc)
  simp [seqOutcome_pendValid h hc] at hv

/-- A tick keeps the invariant. -/
theorem tickBlock_keeps_inv {p : Params} (hp : p.Valid) (lvl : Bool) {b : Block} (h : BlockInv p b) :
    BlockInv p (tickBlock p lvl b) :=
  timeAdvance_keeps_inv hp h.micros (seqStep_keeps_inv hp lvl h)

end Sys2Proof.Machine
end

section
/-! PROOF. The invariant on every run, and the block after reset. -/
namespace Sys2Proof.Machine

/-- Settles O47: the table of R54 element by element, and the sixteen addresses one by one. -/
theorem resetValues : Obligations.ResetValues := by
  unfold Obligations.ResetValues
  exact ⟨rfl, by decide⟩

/-- Settles O49: the sequencer is idle and nothing is calibrated, latched or cached. -/
theorem resetMeetsTheInvariant : Obligations.ResetMeetsTheInvariant := by
  have stored : StoredInv Config.params Block.reset := {
    bits := Nat.zero_le _
    profileOk := nofun
    cachedFrame := nofun
    code := rfl
    readyCal := nofun }
  exact blockInv_of_parts (Nat.succ_pos _) (Nat.zero_le _) nofun stored fun hne => absurd rfl hne

/-- Settles O50: a step is a host access, a poll, a tick or a reset, and each keeps the invariant. -/
theorem everyStepKeepsTheInvariant : Obligations.EveryStepKeepsTheInvariant := by
  intro s t h hstep
  rcases step_next_cases hstep with ⟨r, _, _, hblk⟩ | ⟨_, _, _, hblk⟩ | ⟨_, hblk⟩ | ⟨_, hblk⟩ <;> rw [hblk]
  · exact accessBlock_keeps_inv r h
  · exact h
  · exact tickBlock_keeps_inv configParams_valid _ h
  · exact resetMeetsTheInvariant

/-- A run of `n + 1` steps that answers next goes through the answer of its first step. -/
theorem coreRun_succ_next (M : Host.Core) (n : Nat) {s t : M.State} (h : M.run (n + 1) s = .next t) :
    ∃ u, M.step s = .next u ∧ M.run n u = .next t := by
  unfold Host.Core.run at h
  split at h
  · exact ⟨_, ‹_›, h⟩
  · cases h
  · cases h

/-- A run of any length keeps what every step keeps. -/
theorem run_keeps {I : State → Prop} (keeps : ∀ s t, I s → step s = .next t → I t) (n : Nat) {s t : State} (hs : I s)
    (hrun : Host.Core.run Sys2Proof.core n s = .next t) : I t := by
  induction n generalizing s with
  | zero => cases hrun; exact hs
  | succ n ih =>
    obtain ⟨u, hstep, hrest⟩ := coreRun_succ_next Sys2Proof.core n hrun
    exact ih (keeps s u hs hstep) hrest

/-- Settles O51, by induction on the length of the run: the invariant holds at its end, and has the profile's bounds. -/
theorem profileBoundsOnEveryRun : Obligations.ProfileBoundsOnEveryRun := by
  intro s n t h hrun hcal
  have inv : BlockInv Config.params t.blk :=
    run_keeps (I := fun u => BlockInv Config.params u.blk) everyStepKeepsTheInvariant n h hrun
  have prof := inv.profileOk hcal
  exact ⟨prof.zero_le, prof.one_gt, prof.one_le, prof.lead_pos, prof.lead_le, prof.ackl_pos, prof.ackl_le, prof.ackh_pos,
    prof.ackh_le⟩

end Sys2Proof.Machine
end

section
/-! PROOF. What one step can change of the cached frame, the profile, the lifecycle and the drive of the line: first per
sequencer step, then per step of the machine. -/
namespace Sys2Proof.Machine

/-! ## The step without its reset -/

/-- A step that is no reset leaves a block that differs from the one before it in the latch and the host's flags alone, or
is an outcome of the sequencer with the time advanced. -/
theorem step_block_cases {s t : State} (h : step s = .next t) (hr : resetNext s = false) :
    (∃ pv pc o i, t.blk = { s.blk with pendValid := pv, pendCmd := pc, ovr := o, ill := i }) ∨
    (∃ lvl c, SeqOutcome Config.params lvl s.blk c ∧ t.blk = timeAdvance s.blk c) := by
  rcases step_next_cases h with ⟨r, _, _, hblk⟩ | ⟨_, _, _, hblk⟩ | ⟨_, hblk⟩ | ⟨hreset, _⟩
  · obtain ⟨pv, pc, o, i, hframe⟩ := accessBlock_frame r s.blk
    exact .inl ⟨pv, pc, o, i, hblk.trans hframe⟩
  · exact .inl ⟨_, _, _, _, hblk⟩
  · exact .inr ⟨_, _, seqStep_outcome _ _ _, hblk⟩
  · simp [hreset] at hr

/-! ## The cached frame -/

/-- What a failure leaves of the frame, the profile and the drive. -/
theorem failedAt_keeps (g : BitVec 8) (b : Block) :
    (failedAt g b).frame = b.frame ∧ (failedAt g b).frameValid = b.frameValid ∧ (failedAt g b).profile = b.profile ∧
    (failedAt g b).calDone = b.calDone ∧ (failedAt g b).lineOe = b.lineOe ∧ (failedAt g b).lineOut = b.lineOut := by
  unfold failedAt
  split <;> exact ⟨rfl, rfl, rfl, rfl, rfl, rfl⟩

/-- A dispatch writes no frame, and drops the cached one only by a RECOVER that finds `recovering = 0`. -/
theorem dispatchOutcome_frame {p : Params} {b c : Block} {k : BitVec 3} (h : DispatchOutcome p b k c) :
    c.frame = b.frame ∧ (c.frameValid = b.frameValid ∨ (c.frameValid = false ∧ k = 2 ∧ b.recovering = false)) := by
  cases h with
  | powerOn k rc fv _ hfv =>
    rcases hfv with ⟨hk, hrc, _, hf⟩ | ⟨_, _, _, hf⟩
    · exact ⟨rfl, .inr ⟨hf, hk, hrc⟩⟩
    · exact ⟨rfl, .inl hf⟩
  | _ => exact ⟨rfl, .inl rfl⟩

/-- The end of a calibration's high phase leaves the frame alone. -/
theorem calHighOutcome_frame {p : Params} {b c : Block} {sc : Scratch} (h : CalHighOutcome p b sc c) :
    c.frame = b.frame ∧ c.frameValid = b.frameValid := by
  cases h with
  | failed =>
    obtain ⟨hf, hv, _⟩ := failedAt_keeps 4 (pulseCounted sc b)
    exact ⟨hf, hv⟩
  | _ => exact ⟨rfl, rfl⟩

/-- All that a sequencer step can do to the cached frame (spec/10_state.md R49). -/
theorem seqOutcome_frame {p : Params} {lvl : Bool} {b c : Block} (h : SeqOutcome p lvl b c) :
    (c.frame = b.frame ∧ c.frameValid = b.frameValid) ∨
    (c.frame = b.frame ∧ c.frameValid = false ∧
      b.phase = .idle ∧ b.pendValid = true ∧ b.pendCmd = 2 ∧ b.recovering = false) ∨
    (c.frame = b.acc ∧ c.frameValid = true ∧ c.err = 0x00 ∧
      b.phase = .wHigh ∧ b.mode = .dec ∧ b.bitcnt = 40 ∧ checksumOk b.acc = true) := by
  cases h with
  | dispatched c hi hv hd =>
    obtain ⟨hf, hkept | ⟨hdrop, hk, hrc⟩⟩ := dispatchOutcome_frame hd
    · exact .inl ⟨hf, hkept⟩
    · exact .inr (.inl ⟨hf, hdrop, hi, hv, hk, hrc⟩)
  | timedOut =>
    obtain ⟨hf, hv, _⟩ := failedAt_keeps (stageCode (waitStage b)) b
    exact .inl ⟨hf, hv⟩
  | frameOk hph hm _ hb hsum => exact .inr (.inr ⟨rfl, rfl, rfl, hph, hm, hb, hsum⟩)
  | calHighEnds c _ _ _ hh => exact .inl (calHighOutcome_frame hh)
  | _ => exact .inl ⟨rfl, rfl⟩

/-- Settles O37, from all that a sequencer step can do to the cached frame. -/
theorem cachedFrameChanges : Obligations.CachedFrameChanges := by
  intro s t h hr
  rcases step_block_cases h hr with ⟨pv, pc, o, i, hblk⟩ | ⟨lvl, c, hc, hblk⟩
  · exact ⟨by simp [hblk], fun h1 h0 => by simp [hblk, h1] at h0⟩
  · simp only [hblk, timeAdvance_frame, timeAdvance_frameValid, timeAdvance_err]
    rcases seqOutcome_frame hc with ⟨hf, hv⟩ | ⟨hf, hv, hdrop⟩ | ⟨hf, hv, he, hph, hm, hb, hsum⟩
    · exact ⟨by simp [hf, hv], fun h1 h0 => by simp [hv, h1] at h0⟩
    · exact ⟨by simp [hf, hv], fun _ _ => hdrop⟩
    · exact ⟨fun _ => ⟨hph, hm, hb, hsum, hf, hv, he⟩, by simp [hv]⟩

/-! ## The profile -/

/-- The profile that a calibration of `b` writes when its last scratch is `sc` (spec/42_calibrator.md R163). -/
def measuredProfile (b : Block) (sc : Scratch) : Profile where
  ack80Low := b.scratch.ackl
  ack80High := b.scratch.ackh
  bitLeadLow := b.scratch.lead
  bitHighZero := sc.h0
  bitHighOne := sc.h1

/-- A dispatch leaves the profile alone. -/
theorem dispatchOutcome_profile {p : Params} {b c : Block} {k : BitVec 3} (h : DispatchOutcome p b k c) :
    c.profile = b.profile ∧ c.calDone = b.calDone := by
  cases h <;> exact ⟨rfl, rfl⟩

/-- The end of a calibration's high phase leaves the profile alone, or writes it whole. -/
theorem calHighOutcome_profile {p : Params} {b c : Block} {sc : Scratch} (h : CalHighOutcome p b sc c) :
    (c.profile = b.profile ∧ c.calDone = b.calDone) ∨
    (c.profile = measuredProfile b c.scratch ∧ c.calDone = true ∧ c.scratch.seen0 = true ∧ c.scratch.seen1 = true) := by
  cases h with
  | failed =>
    obtain ⟨_, _, hp, hd, _⟩ := failedAt_keeps 4 (pulseCounted sc b)
    exact .inl ⟨hp, hd⟩
  | next => exact .inl ⟨rfl, rfl⟩
  | ready h0 h1 => exact .inr ⟨rfl, rfl, h0, h1⟩
  | measured h0 h1 => exact .inr ⟨rfl, rfl, h0, h1⟩
  | readCached h0 h1 => exact .inr ⟨rfl, rfl, h0, h1⟩
  | readBusy h0 h1 => exact .inr ⟨rfl, rfl, h0, h1⟩
  | readDecode h0 h1 => exact .inr ⟨rfl, rfl, h0, h1⟩
  | noCommand h0 h1 => exact .inr ⟨rfl, rfl, h0, h1⟩

/-- All that a sequencer step can do to the profile and `cal_done` (spec/10_state.md R43, R46). -/
theorem seqOutcome_profile {p : Params} {lvl : Bool} {b c : Block} (h : SeqOutcome p lvl b c) :
    (c.profile = b.profile ∧ c.calDone = b.calDone) ∨
    (b.phase = .wHigh ∧ b.mode = .cal ∧
      c.profile = measuredProfile b c.scratch ∧ c.calDone = true ∧ c.scratch.seen0 = true ∧ c.scratch.seen1 = true) := by
  cases h with
  | dispatched c _ _ hd => exact .inl (dispatchOutcome_profile hd)
  | timedOut =>
    obtain ⟨_, _, hp, hd, _⟩ := failedAt_keeps (stageCode (waitStage b)) b
    exact .inl ⟨hp, hd⟩
  | calHighEnds c hph hm _ hh => exact (calHighOutcome_profile hh).imp_right fun hw => ⟨hph, hm, hw⟩
  | _ => exact .inl ⟨rfl, rfl⟩

/-- Settles O38: of a sequencer step's two ways with the profile, one leaves it alone. -/
theorem profileChanges : Obligations.ProfileChanges := by
  intro s t h hr hne
  rcases step_block_cases h hr with ⟨pv, pc, o, i, hblk⟩ | ⟨lvl, c, hc, hblk⟩
  · simp [hblk] at hne
  · simp only [hblk, timeAdvance_profile, timeAdvance_calDone, timeAdvance_scratch] at hne ⊢
    rcases seqOutcome_profile hc with ⟨hp, _⟩ | ⟨hph, hm, hp, hd, h0, h1⟩
    · exact absurd hp hne
    · exact ⟨hph, hm, hd, h0, h1, hp⟩

/-- Settles O39: `cal_done` is as before, or 1 by a calibration. -/
theorem calDoneIsSetOnceByACalibration : Obligations.CalDoneIsSetOnceByACalibration := by
  intro s t h hr
  rcases step_block_cases h hr with ⟨pv, pc, o, i, hblk⟩ | ⟨lvl, c, hc, hblk⟩
  · exact ⟨by simp [hblk], fun h0 h1 => by simp [hblk, h0] at h1⟩
  · simp only [hblk, timeAdvance_calDone, timeAdvance_scratch]
    rcases seqOutcome_profile hc with ⟨_, hd⟩ | ⟨hph, hm, _, hd, h0, h1⟩
    · exact ⟨hd.trans, fun h0 h1 => by simp [hd, h0] at h1⟩
    · exact ⟨fun _ => hd, fun _ _ => ⟨hph, hm, h0, h1⟩⟩

/-! ## The lifecycle -/

/-- The commands whose calibrations move the lifecycle: BEGIN, RECOVER and READ (spec/42_calibrator.md R163, R164). -/
def movesLifecycle (b : Block) : Prop := b.op = 1 ∨ b.op = 2 ∨ b.op = 3

/-- All that a step can do to the stored lifecycle state and the recovery flag (spec/10_state.md R41, R42;
spec/44_lifecycle.md R219). -/
inductive LifecycleMove (b c : Block) : Prop
  /-- Both stay. -/
  | stays : c.lstate = b.lstate → c.recovering = b.recovering → LifecycleMove b c
  /-- The power-on assumption of a BEGIN, a READ or a later RECOVER. -/
  | assumesPowerOn : b.lstate = .poweredOn → c.lstate = .uninitialized → c.recovering = b.recovering → LifecycleMove b c
  /-- A RECOVER that finds `recovering = 0`. -/
  | recovers : b.phase = .idle → b.pendValid = true → b.pendCmd = 2 → b.recovering = false →
      c.lstate = .uninitialized → c.recovering = true → c.err = 0x01 → LifecycleMove b c
  /-- A successful calibration. -/
  | calibrated : b.phase = .wHigh → b.mode = .cal → movesLifecycle b →
      c.lstate = .ready → c.recovering = false → c.calDone = true → LifecycleMove b c
  /-- A failed calibration. -/
  | failed : sampling b.phase = true → b.mode = .cal → movesLifecycle b → 0x21 ≤ c.err.toNat → c.err.toNat ≤ 0x25 →
      c.lstate = .uninitialized → (c.recovering = b.recovering ∨ b.op = 2 ∧ c.recovering = false) → LifecycleMove b c

/-- A dispatch moves the lifecycle only by the power-on assumption or a RECOVER. -/
theorem dispatchOutcome_lifecycle {p : Params} {b c : Block} (hi : b.phase = .idle) (hv : b.pendValid = true)
    (h : DispatchOutcome p b b.pendCmd c) : LifecycleMove b c := by
  generalize hk : b.pendCmd = k at h
  cases h with
  | powerOn k rc fv _ hrc =>
    rcases hrc with ⟨h2, hzero, hset, _⟩ | ⟨_, hpw, hkept, _⟩
    · exact .recovers hi hv (hk.trans h2) hzero rfl hset rfl
    · exact .assumesPowerOn hpw rfl hkept
  | _ => exact .stays rfl rfl

/-- A failure at a sampling phase moves the lifecycle only if it is a calibration's of BEGIN, RECOVER or READ; `r` is the
block before the step. -/
theorem failedAt_lifecycle {r w : Block} (g : Stage) (hs : sampling r.phase = true) (hm : w.mode = r.mode)
    (ho : w.op = r.op) (hl : w.lstate = r.lstate) (hrc : w.recovering = r.recovering) :
    LifecycleMove r (failedAt (stageCode g) w) := by
  obtain ⟨e, ls, rc, heq, ⟨_, hls, hr, _⟩ | ⟨hcal, hlo, hhi, hls, hr⟩⟩ := failedAt_frame g w <;> rw [heq]
  · exact .stays (hls.trans hl) (hr.trans hrc)
  · rw [ho] at hls hr
    by_cases hop : movesLifecycle r
    · refine .failed hs (hm ▸ hcal) hop hlo hhi (hls.trans (if_pos hop)) ?_
      by_cases h2 : r.op = 2
      · exact .inr ⟨h2, hr.trans (if_pos h2)⟩
      · exact .inl (hr.trans ((if_neg h2).trans hrc))
    · have h2 : r.op ≠ 2 := fun h2 => hop (.inr (.inl h2))
      exact .stays (hls.trans ((if_neg hop).trans hl)) (hr.trans ((if_neg h2).trans hrc))

/-- The end of a calibration's high phase moves the lifecycle as the calibration ends. -/
theorem calHighOutcome_lifecycle {p : Params} {b c : Block} {sc : Scratch} (hph : b.phase = .wHigh) (hm : b.mode = .cal)
    (h : CalHighOutcome p b sc c) : LifecycleMove b c := by
  cases h with
  | ready _ _ ho => exact .calibrated hph hm (ho.imp_right .inl) rfl rfl rfl
  | readCached _ _ ho => exact .calibrated hph hm (.inr (.inr ho)) rfl rfl rfl
  | readBusy _ _ ho => exact .calibrated hph hm (.inr (.inr ho)) rfl rfl rfl
  | readDecode _ _ ho => exact .calibrated hph hm (.inr (.inr ho)) rfl rfl rfl
  | failed => exact failedAt_lifecycle .bitHigh (by simp [hph, sampling]) rfl rfl rfl rfl
  | _ => exact .stays rfl rfl

/-- A sequencer step has no other way with the lifecycle. -/
theorem seqOutcome_lifecycle {p : Params} {lvl : Bool} {b c : Block} (h : SeqOutcome p lvl b c) : LifecycleMove b c := by
  cases h with
  | dispatched c hi hv hd => exact dispatchOutcome_lifecycle hi hv hd
  | timedOut hs => exact failedAt_lifecycle _ hs rfl rfl rfl rfl
  | calHighEnds c hph hm _ hh => exact calHighOutcome_lifecycle hph hm hh
  | _ => exact .stays rfl rfl

/-- A step of the machine but a reset has no other way with the lifecycle. -/
theorem step_lifecycle {s t : State} (h : step s = .next t) (hr : resetNext s = false) : LifecycleMove s.blk t.blk := by
  rcases step_block_cases h hr with ⟨pv, pc, o, i, hblk⟩ | ⟨lvl, c, hc, hblk⟩
  · exact .stays (by rw [hblk]) (by rw [hblk])
  · rw [hblk]
    cases seqOutcome_lifecycle hc with
    | stays hl hrc => exact .stays (by simpa using hl) (by simpa using hrc)
    | assumesPowerOn hpw hl hrc => exact .assumesPowerOn hpw (by simpa using hl) (by simpa using hrc)
    | recovers hi hv hk hz hl hrc he =>
      exact .recovers hi hv hk hz (by simpa using hl) (by simpa using hrc) (by simpa using he)
    | calibrated hph hm ho hl hrc hd =>
      exact .calibrated hph hm ho (by simpa using hl) (by simpa using hrc) (by simpa using hd)
    | failed hs hm ho hlo hhi hl hrc =>
      exact .failed hs hm ho (by simpa using hlo) (by simpa using hhi) (by simpa using hl) (by simpa using hrc)

/-- Settles O40, by the ways of a step with the lifecycle. -/
theorem lifecycleStateChanges : Obligations.LifecycleStateChanges := by
  intro s t h hr
  cases step_lifecycle h hr with
  | stays hl => exact ⟨by simp [hl], fun hn hy => absurd (hl ▸ hy) hn, fun hy hn => absurd (hl.trans hy) hn⟩
  | assumesPowerOn hpw hl => simp [hpw, hl]
  | recovers hi hv hk hz hl => exact ⟨by simp [hl], by simp [hl], fun _ _ => ⟨hl, .inr ⟨hi, hv, hk, hz⟩⟩⟩
  | calibrated hph hm ho hl _ hd => exact ⟨by simp [hl], fun _ _ => ⟨hph, hm, hd, ho⟩, by simp [hl]⟩
  | failed hs hm ho hlo hhi hl =>
    exact ⟨by simp [hl], by simp [hl], fun _ _ => ⟨hl, .inl ⟨hm, hs, ho, hlo, hhi⟩⟩⟩

/-- Settles O41, by the ways of a step with the lifecycle. -/
theorem recoveringFlagChanges : Obligations.RecoveringFlagChanges := by
  intro s t h hr
  have recovering_kept {A B : Prop} (hk : t.blk.recovering = s.blk.recovering) :
      (s.blk.recovering = false → t.blk.recovering = true → A) ∧
      (s.blk.recovering = true → t.blk.recovering = false → B) :=
    ⟨fun h0 h1 => by simp [hk, h0] at h1, fun h1 h0 => by simp [hk, h1] at h0⟩
  cases step_lifecycle h hr with
  | stays _ hrc => exact recovering_kept hrc
  | assumesPowerOn _ _ hrc => exact recovering_kept hrc
  | recovers hi hv hk _ _ hrc he => exact ⟨fun _ _ => ⟨hi, hv, hk, he⟩, by simp [hrc]⟩
  | calibrated hph hm ho hl hrc => exact ⟨by simp [hrc], fun _ _ => ⟨hm, by simp [hph, sampling], .inl ⟨hl, ho⟩⟩⟩
  | failed hs hm _ hlo hhi hl hrc =>
    rcases hrc with hkept | ⟨h2, hclear⟩
    · exact recovering_kept hkept
    · exact ⟨by simp [hclear], fun _ _ => ⟨hm, hs, .inr ⟨hl, h2, hlo, hhi⟩⟩⟩

/-! ## The drive of the line -/

/-- All that a step can do to the drive of the line (spec/10_state.md R51). -/
inductive DriveMove (b c : Block) : Prop
  /-- The drive stays. -/
  | stays : c.lineOe = b.lineOe → c.lineOut = b.lineOut → DriveMove b c
  /-- A start signal begins. -/
  | starts : b.phase ≠ .startLow → c.phase = .startLow → c.lineOe = true → c.lineOut = false → DriveMove b c
  /-- A start signal ends. -/
  | releases : b.phase = .startLow → c.phase ≠ .startLow → c.lineOe = false → DriveMove b c
  /-- The last bit of a decode ends. -/
  | decodeEnds : b.phase = .wHigh → b.mode = .dec → b.bitcnt = 40 → c.lineOe = true → c.lineOut = true → DriveMove b c

/-- A sequencer step has no other way with the drive. -/
theorem seqOutcome_drive {p : Params} {lvl : Bool} {b c : Block} (h : SeqOutcome p lvl b c) : DriveMove b c := by
  cases h with
  | dispatched c hi _ hd =>
    have hne : b.phase ≠ .startLow := by simp [hi]
    generalize b.pendCmd = k at hd
    cases hd with
    | calibrate => exact .starts hne rfl rfl rfl
    | decode => exact .starts hne rfl rfl rfl
    | start => exact .starts hne rfl rfl rfl
    | _ => exact .stays rfl rfl
  | startEnds hph => exact .releases hph nofun rfl
  | released hph => exact .releases hph nofun rfl
  | timedOut =>
    obtain ⟨_, _, _, _, hoe, hout⟩ := failedAt_keeps (stageCode (waitStage b)) b
    exact .stays hoe hout
  | frameOk hph hm _ hb => exact .decodeEnds hph hm hb rfl rfl
  | frameBad hph hm _ hb => exact .decodeEnds hph hm hb rfl rfl
  | calHighEnds c hph _ _ hh =>
    cases hh with
    | readDecode => exact .starts (by simp [hph]) rfl rfl rfl
    | failed =>
      obtain ⟨_, _, _, _, hoe, hout⟩ := failedAt_keeps 4 (pulseCounted (scratchAfterHigh p (b.cnt + 1) b.scratch) b)
      exact .stays hoe hout
    | _ => exact .stays rfl rfl
  | _ => exact .stays rfl rfl

/-- Settles O44: each way with the drive that is not to keep it is one of the three writers of R51. -/
theorem lineDriveChanges : Obligations.LineDriveChanges := by
  intro s t h hr hne
  rcases step_block_cases h hr with ⟨pv, pc, o, i, hblk⟩ | ⟨lvl, c, hc, hblk⟩
  · simp [hblk] at hne
  · simp only [hblk, lineDrive, timeAdvance_lineOe, timeAdvance_lineOut, timeAdvance_phase] at hne ⊢
    cases seqOutcome_drive hc with
    | stays hoe hout => simp [hoe, hout] at hne
    | starts hb hph hoe hout => exact .inl ⟨hph, hb, by simp [hoe, hout]⟩
    | releases hb hph hoe => exact .inr (.inl ⟨hb, hph, by simp [hoe]⟩)
    | decodeEnds hph hm hb hoe hout => exact .inr (.inr ⟨hph, hm, hb, by simp [hoe, hout]⟩)

end Sys2Proof.Machine
end

section
/-! PROOF. Host accesses and rest: what every transaction leaves of the whole state, that a block with nothing pending or
running only counts time, and that a step where an instruction is fetched is its meaning. -/
namespace Sys2Proof.Machine

/-! ## Host accesses -/

/-- A read transaction returns the register its address names (spec/20_memory.md R80, R88). -/
theorem exec_decodeRead (a : BitVec 4) (s : State) :
    exec (decodeRead a) s = .next (busReturn a (regRead Config.params a s.blk) s) := by
  obtain ⟨n, hn⟩ := a
  interval_cases n <;> rfl

/-- A write transaction completes, and acts on the block alone. -/
theorem exec_decodeWrite (a : BitVec 4) (v : Word) (s : State) :
    exec (decodeWrite a v) s = .next (onBlock (accessBlock { we := true, addr := a, wdata := v }) s) := by
  obtain ⟨n, hn⟩ := a
  interval_cases n <;> rfl

/-- Settles O15: the read's outcome, one address at a time, is `exec_decodeRead`. -/
theorem everyReadReturnsItsRegister : Obligations.EveryReadReturnsItsRegister :=
  fun s a _ => exec_decodeRead a s

/-- Settles O35: a read only returns to the host, and a write acts on the block as `accessBlock_frame` bounds it. -/
theorem hostAccessLeavesTheSequencer : Obligations.HostAccessLeavesTheSequencer := by
  rintro s ⟨we, a, v⟩
  cases we with
  | false => exact ⟨_, exec_decodeRead a s, rfl, rfl, rfl, rfl, fun _ => rfl, nofun⟩
  | true =>
    refine ⟨_, exec_decodeWrite a v s, ?_, rfl, rfl, rfl, nofun, fun _ => rfl⟩
    obtain ⟨pv, pc, o, i, hframe⟩ := accessBlock_frame { we := true, addr := a, wdata := v } s.blk
    rw [onBlock_blk, hframe]

/-! ## Rest -/

/-- A time advance writes the three time counters and nothing else (spec/40_pulse_width.md R133). -/
theorem timeAdvance_frame_time (r w : Block) :
    ∃ pre us ms, timeAdvance r w = { w with preCnt := pre, usCnt := us, nowMs := ms } := by
  unfold timeAdvance
  split
  · exact ⟨_, _, _, rfl⟩
  · exact ⟨_, _, w.nowMs, rfl⟩

/-- Ticks of a block with nothing pending or running write the three time counters and nothing else. -/
theorem tickRun_rest (p : Params) (levels : List Bool) {b : Block} (hi : b.phase = .idle) (hp : b.pendValid = false) :
    ∃ pre us ms, tickRun p levels b = { b with preCnt := pre, usCnt := us, nowMs := ms } := by
  induction levels generalizing b with
  | nil => exact ⟨_, _, _, rfl⟩
  | cons lvl rest ih =>
    obtain ⟨pre, us, ms, htick⟩ := timeAdvance_frame_time b b
    have hrest : tickBlock p lvl b = { b with preCnt := pre, usCnt := us, nowMs := ms } := by
      rw [tickBlock, seqStep_rest p lvl hi hp, htick]
    obtain ⟨pre', us', ms', hrun⟩ := ih (b := tickBlock p lvl b) (by rw [hrest]; exact hi) (by rw [hrest]; exact hp)
    exact ⟨pre', us', ms', by rw [tickRun, hrun, hrest]⟩

/-- Settles O36, by induction over the ticks: each finds the block at rest again, and advances its time. -/
theorem idleTicksChangeOnlyTime : Obligations.IdleTicksChangeOnlyTime := by
  intro p levels b hi hp
  obtain ⟨pre, us, ms, hrun⟩ := tickRun_rest p levels hi hp
  rw [hrun]

/-! ## The fetched instruction -/

/-- The bytes of a transaction decode as the transaction. -/
theorem decode_codeBytes_bus (r : BusReq) : decode .bus (codeBytes (.bus r)) = .ok (decodeBus r) := by
  have hcode : codeOfBytes .bus (codeBytes (.bus r)) = .ok (.bus r) := codeOfBytes_codeBytes (.bus r)
  simp only [decode, hcode, decodeCode]

/-- A latched legal command stands for the instruction that its word decodes to (spec/44_lifecycle.md R211). -/
theorem commandInstr_eq_decodeCmd :
    ∀ k : BitVec 3, 1 ≤ k.toNat → k.toNat ≤ 5 → commandInstr k = some (decodeCmd (0#29 ++ k)) := by
  decide

/-- Where a tick comes next, the turn is the tick's, with what the host does after it. -/
theorem nextTurn_of_tickNext {s : State} (h : tickNext s = true) :
    nextTurn s = tickTurn { s with script := scriptAfterTick s.script } := by
  obtain ⟨blk, script, lineIn, tickNo, rdLog⟩ := s
  match script with
  | [] => rfl
  | .wait _ :: _ => rfl
  | .access _ :: _ => cases h
  | .poll _ :: _ => cases h
  | .rst :: _ => cases h

/-- A tick with the sequencer idle and a legal command pending dispatches that command. -/
theorem tickTurn_of_pending {s : State} (hi : s.blk.phase = .idle) (hp : s.blk.pendValid = true)
    (h1 : 1 ≤ s.blk.pendCmd.toNat) (h5 : s.blk.pendCmd.toNat ≤ 5) :
    tickTurn s = .dispatch (decodeCmd (0#29 ++ s.blk.pendCmd)) s := by
  rw [tickTurn, if_pos ⟨hi, hp⟩, commandInstr_eq_decodeCmd _ h1 h5]

/-- Settles O5: each of the three turns that fetch an instruction, from the bus, from POLL and from the latch. -/
theorem stepRunsTheFetchedInstruction : Obligations.StepRunsTheFetchedInstruction := by
  refine ⟨fun s r rest i hs hd => ?access, fun s more rest hs => ?poll, fun s ht hi hp h1 h5 => ?dispatch⟩
  case access =>
    obtain rfl : decodeBus r = i := Except.ok.inj ((decode_codeBytes_bus r).symm.trans hd)
    simp only [step, nextTurn, hs]
  case poll => simp only [step, nextTurn, hs, pollAfter]
  case dispatch =>
    rw [step, nextTurn_of_tickNext ht, tickTurn_of_pending (s := { s with script := scriptAfterTick s.script }) hi hp h1 h5]

end Sys2Proof.Machine
end

section
/-! PROOF. The encoding: the code of every well-formed instruction reads as it, and every command word and every bus
transaction is the code of the instruction it decodes to (spec/30_encoding.md R100 to R103). -/
namespace Sys2Proof
open Laws

/-! ## From an instruction to its bytes and back -/

/-- The law of the round trip, collected over the rows of the table. -/
theorem decodeCode_encodeCode : ∀ i : Instr, CodeRoundTrip.Statement i
  | .nop => CodeRoundTrip.nop
  | .beginCmd => CodeRoundTrip.beginCmd
  | .recover => CodeRoundTrip.recover
  | .read => CodeRoundTrip.read
  | .measure => CodeRoundTrip.measure
  | .start => CodeRoundTrip.start
  | .illegalOp6 => CodeRoundTrip.illegalOp6
  | .illegalOp7 => CodeRoundTrip.illegalOp7
  | .illegalRsv rsv op => CodeRoundTrip.illegalRsv rsv op
  | .rdCmd => CodeRoundTrip.rdCmd
  | .rdStatus => CodeRoundTrip.rdStatus
  | .rdErr => CodeRoundTrip.rdErr
  | .rdData => CodeRoundTrip.rdData
  | .rdCsum => CodeRoundTrip.rdCsum
  | .rdRawLo => CodeRoundTrip.rdRawLo
  | .rdRawHi => CodeRoundTrip.rdRawHi
  | .rdProfAck => CodeRoundTrip.rdProfAck
  | .rdProfLead => CodeRoundTrip.rdProfLead
  | .rdProfBit => CodeRoundTrip.rdProfBit
  | .rdTstamp => CodeRoundTrip.rdTstamp
  | .rdNow => CodeRoundTrip.rdNow
  | .rdValue => CodeRoundTrip.rdValue
  | .rdRsvdD => CodeRoundTrip.rdRsvdD
  | .rdRsvdE => CodeRoundTrip.rdRsvdE
  | .rdRsvdF => CodeRoundTrip.rdRsvdF
  | .wrCmd v => CodeRoundTrip.wrCmd v
  | .wrStatus v => CodeRoundTrip.wrStatus v
  | .wrErr v => CodeRoundTrip.wrErr v
  | .wrData v => CodeRoundTrip.wrData v
  | .wrCsum v => CodeRoundTrip.wrCsum v
  | .wrRawLo v => CodeRoundTrip.wrRawLo v
  | .wrRawHi v => CodeRoundTrip.wrRawHi v
  | .wrProfAck v => CodeRoundTrip.wrProfAck v
  | .wrProfLead v => CodeRoundTrip.wrProfLead v
  | .wrProfBit v => CodeRoundTrip.wrProfBit v
  | .wrTstamp v => CodeRoundTrip.wrTstamp v
  | .wrNow v => CodeRoundTrip.wrNow v
  | .wrValue v => CodeRoundTrip.wrValue v
  | .wrRsvdD v => CodeRoundTrip.wrRsvdD v
  | .wrRsvdE v => CodeRoundTrip.wrRsvdE v
  | .wrRsvdF v => CodeRoundTrip.wrRsvdF v

/-- The bytes of a code, in its format, decode as the code. -/
theorem decode_codeBytes (c : Code) : decode c.format (codeBytes c) = .ok (decodeCode c) := by
  rw [decode, codeOfBytes_codeBytes]

/-- Settles O1: the bytes give the code back, and the code the instruction. -/
theorem decodeOfEncodeIsIdentity : Obligations.DecodeOfEncodeIsIdentity := by
  intro i hi
  rw [encode, ← encodeCode_format, decode_codeBytes, decodeCode_encodeCode i hi]

/-! ## From a code to its instruction and back -/

/-- The eight command words with no reserved bits (R101, R102). -/
theorem encodeCode_decodeCmd_op :
    ∀ op : BitVec 3, (decodeCmd (0#29 ++ op)).wellFormed = true ∧ encodeCode (decodeCmd (0#29 ++ op)) = cmdWord op := by
  decide

/-- A command word with reserved bits (R103). -/
theorem encodeCode_decodeCmd_rsv {rsv : BitVec 29} (op : BitVec 3) (h : rsv ≠ 0) :
    (decodeCmd (rsv ++ op)).wellFormed = true ∧ encodeCode (decodeCmd (rsv ++ op)) = .cmd (rsv ++ op) := by
  rw [decodeCmd_rsv rsv op h]
  exact ⟨bne_iff_ne.mpr h, rfl⟩

/-- Settles O2: a word is its reserved field and its OP, and the reserved field is zero or not. -/
theorem everyCommandWordReencodes : Obligations.EveryCommandWordReencodes := by
  intro w
  rw [cmd_word_split w]
  by_cases hrsv : w.extractLsb' 3 29 = 0
  · rw [hrsv]
    exact encodeCode_decodeCmd_op _
  · exact encodeCode_decodeCmd_rsv _ hrsv

/-- The sixteen reads (R100). -/
theorem encodeCode_decodeRead :
    ∀ a : BitVec 4, (decodeRead a).wellFormed = true ∧ encodeCode (decodeRead a) = readReq a := by
  decide

/-- The sixteen writes, with every `wdata` (R100). -/
theorem encodeCode_decodeWrite (a : BitVec 4) (v : Word) :
    (decodeWrite a v).wellFormed = true ∧ encodeCode (decodeWrite a v) = writeReq a v := by
  obtain ⟨n, hn⟩ := a
  interval_cases n <;> exact ⟨rfl, rfl⟩

/-- Settles O3: a transaction is a write or a read, and a read re-encodes with no `wdata`. -/
theorem everyTransactionReencodes : Obligations.EveryTransactionReencodes := by
  rintro ⟨_ | _, addr, wdata⟩
  case false => exact encodeCode_decodeRead addr
  case true => exact encodeCode_decodeWrite addr wdata

/-! ## The table's words -/

/-- Settles O4: the decoder evaluated at the ten words of R100 and R102. -/
theorem specWordsDecode : Obligations.SpecWordsDecode := by
  unfold Obligations.SpecWordsDecode
  decide

end Sys2Proof
end

section
/-! PROOF. The bounded wait and the pad: runs of one level through the pulse-width detector, and the level that a drive
gives. -/
namespace Sys2Proof.Machine

/-! ## The bounded wait -/

/-- A tick off the level ends the wait, whatever its bound (spec/60_exceptions.md R281). -/
theorem waitStep_off_level {lvl L : Bool} (h : lvl ≠ L) (B : Nat) (c : Dur) : waitStep lvl L B c = .ended (c + 1) :=
  if_pos h

/-- A tick at the level that reaches the bound times out. -/
theorem waitStep_at_bound (L : Bool) {B : Nat} {c : Dur} (h : B ≤ (c + 1).toNat) : waitStep L L B c = .timedOut := by
  rw [waitStep, if_neg (not_not_intro rfl), if_pos h]

/-- A tick at the level below the bound counts. -/
theorem waitStep_below_bound (L : Bool) {B : Nat} {c : Dur} (h : (c + 1).toNat < B) :
    waitStep L L B c = .holding (c + 1) := by
  rw [waitStep, if_neg (not_not_intro rfl), if_neg (Nat.not_le.2 h)]

/-- `n` ticks at the level that end below the bound only count. -/
theorem waitRun_replicate {L : Bool} {B : Nat} (hB : B ≤ 65535) (rest : List Bool) (n : Nat) {c : Dur}
    (h : c.toNat + n < B) : waitRun L B c (List.replicate n L ++ rest) = waitRun L B (c + BitVec.ofNat 16 n) rest := by
  induction n generalizing c with
  | zero => simp
  | succ n ih =>
    have hc : (c + 1).toNat = c.toNat + 1 := dur_succ_toNat (n := B) (by omega) hB
    have hsum : c + 1 + BitVec.ofNat 16 n = c + BitVec.ofNat 16 (n + 1) := by
      rw [BitVec.add_assoc, BitVec.add_comm 1, BitVec.ofNat_add]
      rfl
    rw [List.replicate_succ, List.cons_append, waitRun, waitStep_below_bound L (by omega)]
    exact (ih (by omega)).trans (by rw [hsum])

/-- A wait entered with the count 0 has counted the `n` ticks that its line stayed at the level. -/
theorem waitRun_from_zero {L : Bool} {B : Nat} (hB : B ≤ 65535) (rest : List Bool) {n : Nat} (h : n < B) :
    waitRun L B 0 (List.replicate n L ++ rest) = waitRun L B (BitVec.ofNat 16 n) rest :=
  (waitRun_replicate hB rest n (by simpa using h)).trans (by rw [zero_add])

/-- Settles O9: the three outcomes of one tick, and the tick after the last that counts, off the level or at the
bound. -/
theorem boundedWaitEndsOrTimesOut : Obligations.BoundedWaitEndsOrTimesOut := by
  refine ⟨fun lvl L B c => ⟨fun h => waitStep_off_level h B c, ?_, ?_⟩,
    fun L B h1 hB => ⟨fun j rest hj hjB => ?ends, fun rest => ?timesOut⟩⟩
  · rintro rfl h
    exact waitStep_at_bound lvl h
  · rintro rfl h
    exact waitStep_below_bound lvl h
  case ends =>
    obtain ⟨n, rfl⟩ : ∃ n, j = n + 1 := ⟨j - 1, by omega⟩
    rw [Nat.add_sub_cancel, waitRun_from_zero hB _ (by omega), waitRun, waitStep_off_level (Bool.not_ne_self L),
      BitVec.ofNat_add]
    rfl
  case timesOut =>
    obtain ⟨n, rfl⟩ : ∃ n, B = n + 1 := ⟨B - 1, by omega⟩
    have hbound : n + 1 ≤ (BitVec.ofNat 16 n + 1).toNat := by
      rw [dur_succ_toNat (n := n + 1) (by simp; omega) hB, BitVec.toNat_ofNat]
      omega
    rw [List.replicate_succ', List.append_assoc, waitRun_from_zero hB _ (by omega), List.singleton_append, waitRun,
      waitStep_at_bound L hbound]

/-! ## The pad -/

/-- Settles O57: the drive is nothing, low or high, and under each the pad's level is a branch of R132. -/
theorem padLevelOfTheLineDrive : Obligations.PadLevelOfTheLineDrive := by
  intro b tick
  refine ⟨fun hoe pulls => ?released, fun hoe hout pulls => ?low, fun hoe hout => ?high⟩
  case released =>
    have hdrive : lineDrive b = none := by simp [lineDrive, hoe]
    rw [padLevel, hdrive]
  case low =>
    have hdrive : lineDrive b = some false := by simp [lineDrive, hoe, hout]
    rw [padLevel, hdrive]
  case high =>
    have hdrive : lineDrive b = some true := by simp [lineDrive, hoe, hout]
    simp [padLevel, hdrive]

end Sys2Proof.Machine
end

section
/-! PROOF. The tick: that the machine's step is one, and what ticks do to the time. -/
namespace Sys2Proof.Machine

/-! ## The step at a tick -/

/-- The turn of a tick, with a dispatch through `exec` or without one, ends as the plain tick does. -/
theorem step_of_tickNext {s : State} (h : tickNext s = true) :
    step s = .next (plainTick { s with script := scriptAfterTick s.script }) := by
  rw [step, nextTurn_of_tickNext h]
  generalize { s with script := scriptAfterTick s.script } = u
  by_cases hd : u.blk.phase = .idle ∧ u.blk.pendValid = true
  · cases hi : commandInstr u.blk.pendCmd with
    | none => simp only [tickTurn, if_pos hd, hi]
    | some i =>
      simp only [tickTurn, if_pos hd, hi, exec_commandInstr hi, afterDispatch, plainTick, onBlock,
        seqStep_dispatch Config.params _ hd.1 hd.2]
  · simp only [tickTurn, if_neg hd]

/-- Settles O6: the plain tick of `step_of_tickNext`, field by field. -/
theorem tickIsSequencerStepAndTimeAdvance : Obligations.TickIsSequencerStepAndTimeAdvance :=
  fun _ h => step_of_tickNext h

/-! ## The time -/

/-- One tick on the time as numbers, whatever the sequencer does (spec/40_pulse_width.md R133). -/
theorem tickBlock_time (p : Params) (lvl : Bool) {b : Block} (h : b.usCnt.toNat ≤ 999) :
    (tickBlock p lvl b).usCnt.toNat = (b.usCnt.toNat + 1) % 1000 ∧
    (tickBlock p lvl b).nowMs.toNat = (b.nowMs.toNat + (b.usCnt.toNat + 1) / 1000) % 2 ^ 32 := by
  obtain ⟨_, _, hnow, _⟩ := seqStep_frame p lvl b
  rw [tickBlock, timeAdvance_usCnt, timeAdvance_nowMs b _ hnow]
  split_ifs with hu
  · simp [hu]
  · have hlt : b.usCnt.toNat < 999 := by bv_omega
    have hsucc : (b.usCnt + 1).toNat = b.usCnt.toNat + 1 := by bv_omega
    have hnowlt := b.nowMs.isLt
    omega

/-- The time after any ticks, by induction over them: the quotients by 1000 add up along the run. -/
theorem tickRun_time (p : Params) (levels : List Bool) {b : Block} (h : b.usCnt.toNat ≤ 999) :
    (tickRun p levels b).usCnt.toNat = (b.usCnt.toNat + levels.length) % 1000 ∧
    (tickRun p levels b).nowMs.toNat = (b.nowMs.toNat + (b.usCnt.toNat + levels.length) / 1000) % 2 ^ 32 := by
  induction levels generalizing b with
  | nil =>
    have hnowlt := b.nowMs.isLt
    simp only [tickRun, List.length_nil]
    omega
  | cons lvl rest ih =>
    obtain ⟨hus, hnow⟩ := tickBlock_time p lvl h
    obtain ⟨hus', hnow'⟩ := ih (b := tickBlock p lvl b) (by omega)
    rw [tickRun, hus', hnow', hus, hnow, List.length_cons]
    omega

/-- Settles O8: `tickRun_time`, and its case of the block after reset, whose counters are 0. -/
theorem timeAfterTicks : Obligations.TimeAfterTicks := by
  refine ⟨fun p levels b h => tickRun_time p levels h, fun p levels k _ hlen => ?_⟩
  obtain ⟨_, hnow⟩ := tickRun_time p levels (b := Block.reset) (Nat.zero_le _)
  have hus0 : Block.reset.usCnt.toNat = 0 := rfl
  have hnow0 : Block.reset.nowMs.toNat = 0 := rfl
  rw [hnow, hus0, hnow0, Nat.zero_add, Nat.zero_add, hlen]

end Sys2Proof.Machine
end

section
/-! PROOF. The clock edges of a microsecond: the sequencer does not see the prescaler, so the edges that only count it
leave the tick at the closing edge as it is. -/
namespace Sys2Proof.Machine

/-! ## The sequencer does not see the prescaler -/

/-- A block with its prescaler at `n`. -/
def withPrescaler (n : Nat) (b : Block) : Block := { b with preCnt := n }

@[simp] theorem withPrescaler_phase (n : Nat) (b : Block) : (withPrescaler n b).phase = b.phase := rfl
@[simp] theorem withPrescaler_mode (n : Nat) (b : Block) : (withPrescaler n b).mode = b.mode := rfl
@[simp] theorem withPrescaler_op (n : Nat) (b : Block) : (withPrescaler n b).op = b.op := rfl
@[simp] theorem withPrescaler_bitcnt (n : Nat) (b : Block) : (withPrescaler n b).bitcnt = b.bitcnt := rfl
@[simp] theorem withPrescaler_preCnt (n : Nat) (b : Block) : (withPrescaler n b).preCnt = n := rfl

/-- The tests of BEGIN's sequence, INTERVAL_BUSY and the power-on assumption, do not read the prescaler. -/
theorem beginEntry_withPrescaler (n : Nat) (p : Params) (pw : Bool) (r w : Block) :
    beginEntry p pw (withPrescaler n r) (withPrescaler n w) = withPrescaler n (beginEntry p pw r w) := by
  simp only [beginEntry, apply_ite (withPrescaler n)]
  rfl

/-- Nor do those of ReadStart, INTERVAL_BUSY and the valid frame. -/
theorem readStart_withPrescaler (n : Nat) (p : Params) (r w : Block) :
    readStart p (withPrescaler n r) (withPrescaler n w) = withPrescaler n (readStart p r w) := by
  simp only [readStart, apply_ite (withPrescaler n)]
  rfl

/-- A dispatch is the same with any prescaler: each command's entry is. -/
theorem dispatch_withPrescaler (n : Nat) (p : Params) (k : BitVec 3) (b : Block) :
    dispatch p k (withPrescaler n b) = withPrescaler n (dispatch p k b) := by
  unfold dispatch
  split
  · exact beginEntry_withPrescaler n p (poweredOn b) b (dispatchWrites 1 b)
  · simp only [recoverDispatch, recoverEntry, apply_ite (withPrescaler n), ← beginEntry_withPrescaler]
    rfl
  · simp only [readDispatch, readEntry, apply_ite (withPrescaler n), ← beginEntry_withPrescaler,
      ← readStart_withPrescaler]
    rfl
  · simp only [measureDispatch, measureEntry, apply_ite (withPrescaler n)]
    rfl
  · simp only [startDispatch, startEntry, apply_ite (withPrescaler n)]
    rfl
  · rfl

/-- A calibration's success is the same with any prescaler, by command: READ goes on to ReadStart. -/
theorem calSuccess_withPrescaler (n : Nat) (p : Params) (h0 h1 : Dur) (r w : Block) :
    calSuccess p h0 h1 (withPrescaler n r) (withPrescaler n w) = withPrescaler n (calSuccess p h0 h1 r w) := by
  by_cases hread : r.op = 3
  · simp only [calSuccess, withPrescaler_op, hread, if_true, ← readStart_withPrescaler]
    rfl
  · simp only [calSuccess, withPrescaler_op, hread, if_false]
    split_ifs <;> rfl

/-- A failure is the same with any prescaler, by mode. -/
theorem failedAt_withPrescaler (n : Nat) (g : BitVec 8) (b : Block) :
    failedAt g (withPrescaler n b) = withPrescaler n (failedAt g b) := by
  simp only [failedAt, withPrescaler_mode]
  split <;> rfl

/-- The end of a calibration's high phase is the same with any prescaler, in each of its three cases. -/
theorem calHighEnd_withPrescaler (n : Nat) (p : Params) (d : Dur) {b : Block} (hm : b.mode = .cal) :
    calHighEnd p (withPrescaler n b) d (withPrescaler n b) = withPrescaler n (calHighEnd p b d b) := by
  have hfail (sc : Scratch) : withPrescaler n (calFail .bitHigh b (pulseCounted sc b)) =
      calFail .bitHigh (withPrescaler n b) (withPrescaler n (pulseCounted sc b)) := by
    rw [calFail_eq .bitHigh b (pulseCounted sc b) hm rfl,
      calFail_eq .bitHigh (withPrescaler n b) (withPrescaler n (pulseCounted sc b)) hm rfl, failedAt_withPrescaler]
  simp only [pulseCounted] at hfail
  simp only [calHighEnd, apply_ite (withPrescaler n), ← calSuccess_withPrescaler, hfail]
  rfl

/-- The end of a high phase is the same with any prescaler, by mode. -/
theorem highEnd_withPrescaler (n : Nat) (p : Params) (d : Dur) (b : Block) :
    highEnd p (withPrescaler n b) d (withPrescaler n b) = withPrescaler n (highEnd p b d b) := by
  simp only [highEnd, withPrescaler_mode]
  split
  · exact calHighEnd_withPrescaler n p d ‹_›
  · simp only [decHighEnd, decodeDone, apply_ite (withPrescaler n)]
    rfl

/-- A tick of a wait is the same with any prescaler, where what ends the wait is. -/
theorem waitTick_withPrescaler (n : Nat) (p : Params) (lvl : Bool) (b : Block) {fin fin' : Dur → Block → Block}
    (hfin : ∀ d, fin' d (withPrescaler n b) = withPrescaler n (fin d b)) :
    waitTick p lvl (withPrescaler n b) fin' = withPrescaler n (waitTick p lvl b fin) := by
  rw [waitTick_eq, waitTick_eq, apply_ite (withPrescaler n), apply_ite (withPrescaler n), timeout_eq, timeout_eq,
    ← failedAt_withPrescaler, ← hfin]
  rfl

/-- The sequencer step does the same with any prescaler and leaves it as it is (spec/40_pulse_width.md R130). -/
theorem seqStep_withPrescaler (n : Nat) (p : Params) (lvl : Bool) (b : Block) :
    seqStep p lvl (withPrescaler n b) = withPrescaler n (seqStep p lvl b) := by
  have hmode : b.mode = .cal ∨ b.mode = .dec := by cases b.mode <;> simp
  simp only [seqStep, withPrescaler_phase]
  cases b.phase with
  | idle =>
    simp only [apply_ite (withPrescaler n), ← dispatch_withPrescaler]
    rfl
  | startLow =>
    simp only [startLowStep, apply_ite (withPrescaler n)]
    rfl
  | wResp => exact waitTick_withPrescaler n p lvl b fun _ => rfl
  | wAckL =>
    refine waitTick_withPrescaler n p lvl b fun d => ?_
    rcases hmode with hm | hm <;> simp only [ackLowEnd, withPrescaler_mode, hm] <;> rfl
  | wAckH =>
    refine waitTick_withPrescaler n p lvl b fun d => ?_
    rcases hmode with hm | hm <;> simp only [ackHighEnd, withPrescaler_mode, hm] <;> rfl
  | wLead =>
    refine waitTick_withPrescaler n p lvl b fun d => ?_
    simp only [leadEnd, calLeadEnd, withPrescaler_mode, withPrescaler_bitcnt]
    rcases hmode with hm | hm <;> simp only [hm]
    · split_ifs <;> rfl
    · rfl
  | settle =>
    simp only [settleStep, apply_ite (withPrescaler n)]
    rfl
  | wHigh => exact waitTick_withPrescaler n p lvl b fun d => highEnd_withPrescaler n p d b

/-- A tick is the same with any prescaler, which its closing edge takes to 0. -/
theorem tickBlock_withPrescaler (n : Nat) (p : Params) (lvl : Bool) (b : Block) :
    tickBlock p lvl (withPrescaler n b) = tickBlock p lvl b := by
  rw [tickBlock, seqStep_withPrescaler, tickBlock]
  unfold timeAdvance
  rfl

/-! ## The clock edges of a tick -/

/-- Edges one after another: the last of `n + 1` comes after the first `n`. -/
theorem clkEdges_succ_last (p : Params) (lvl : Bool) (n : Nat) (b : Block) :
    clkEdges p lvl (n + 1) b = clkEdge p lvl (clkEdges p lvl n b) := by
  induction n generalizing b with
  | zero => rfl
  | succ n ih => exact ih (clkEdge p lvl b)

/-- An edge that does not close the tick cycle only counts. -/
theorem clkEdge_counts {p : Params} (lvl : Bool) {b : Block} (h : b.preCnt + 1 < p.clksPerUs) :
    clkEdge p lvl b = withPrescaler (b.preCnt + 1) b := by
  rw [clkEdge, if_neg (by omega), Nat.mod_eq_of_lt h, withPrescaler]

/-- Edges that stay within the tick cycle only count. -/
theorem clkEdges_count {p : Params} (lvl : Bool) {b : Block} {n : Nat} (h : b.preCnt + n < p.clksPerUs) :
    clkEdges p lvl n b = withPrescaler (b.preCnt + n) b := by
  induction n with
  | zero => rfl
  | succ n ih =>
    rw [clkEdges_succ_last, ih (by omega), clkEdge_counts lvl (by rw [withPrescaler_preCnt]; omega)]
    rfl

/-- Settles O7: the edges before the last only count, and the last is a tick, which does not see the count. -/
theorem tickIsTheClockEdgesOfAMicrosecond : Obligations.TickIsTheClockEdgesOfAMicrosecond := by
  intro p lvl b _ hpre
  refine ⟨?closing, fun n hn => clkEdges_count lvl (by omega)⟩
  obtain ⟨n, hn⟩ : ∃ n, p.clksPerUs = b.preCnt + n + 1 := ⟨p.clksPerUs - 1 - b.preCnt, by omega⟩
  have hlast : (withPrescaler (b.preCnt + n) b).preCnt = p.clksPerUs - 1 := by rw [withPrescaler_preCnt]; omega
  rw [show p.clksPerUs - b.preCnt = n + 1 by omega, clkEdges_succ_last, clkEdges_count lvl (by omega), clkEdge,
    if_pos hlast, tickBlock_withPrescaler]

end Sys2Proof.Machine
end

section
/-! PROOF. The start signal and the acknowledgement, tick by tick: INTERVAL_BUSY, a tick of each wait, and the entry into
the low hold. -/
namespace Sys2Proof.Machine

/-! ## The minimum interval -/

/-- Settles O10: the 32-bit subtraction of R150 is the elapsed time modulo `2^32`. -/
theorem intervalBusyIsModularElapsedTime : Obligations.IntervalBusyIsModularElapsedTime := by
  intro p b e hnow
  have helapsed : (b.nowMs - b.lastStartMs).toNat = e % 2 ^ 32 := by
    have hlt := b.lastStartMs.isLt
    rw [BitVec.toNat_sub, hnow]
    omega
  rw [intervalBusy, helapsed]

/-- A dispatch enters the low hold only through `StartSeq`, which INTERVAL_BUSY shuts (spec/41_initiator.md R151). -/
theorem dispatchOutcome_startLow {p : Params} {b c : Block} {k : BitVec 3} (h : DispatchOutcome p b k c)
    (hb : b.phase = .idle) (hc : c.phase = .startLow) :
    intervalBusy p b = false ∧ c.lineOe = true ∧ c.lineOut = false ∧ c.cnt = 0 ∧ c.bitcnt = 0 := by
  cases h with
  | calibrate k hi => exact ⟨hi, rfl, rfl, rfl, rfl⟩
  | decode hi => exact ⟨hi, rfl, rfl, rfl, rfl⟩
  | start hi => exact ⟨hi, rfl, rfl, rfl, rfl⟩
  | noCommand => exact absurd (hb.symm.trans hc) nofun
  | _ => exact absurd hc nofun

/-- The end of a calibration's high phase enters the low hold only through READ's `StartSeq`. -/
theorem calHighOutcome_startLow {p : Params} {b c : Block} {sc : Scratch} (h : CalHighOutcome p b sc c)
    (hb : b.phase = .wHigh) (hc : c.phase = .startLow) :
    intervalBusy p b = false ∧ c.lineOe = true ∧ c.lineOut = false ∧ c.cnt = 0 ∧ c.bitcnt = 0 := by
  cases h with
  | readDecode _ _ _ hi => exact ⟨hi, rfl, rfl, rfl, rfl⟩
  | noCommand => exact absurd (hb.symm.trans hc) nofun
  | failed => exact absurd ((failedAt_phase 4 _).symm.trans hc) nofun
  | _ => exact absurd hc nofun

/-- A sequencer step enters the low hold only from a dispatch or from READ's calibration. -/
theorem seqOutcome_startLow {p : Params} {lvl : Bool} {b c : Block} (h : SeqOutcome p lvl b c)
    (hb : b.phase ≠ .startLow) (hc : c.phase = .startLow) :
    intervalBusy p b = false ∧ c.lineOe = true ∧ c.lineOut = false ∧ c.cnt = 0 ∧ c.bitcnt = 0 := by
  cases h with
  | dispatched c hi _ hd => exact dispatchOutcome_startLow hd hi hc
  | calHighEnds c hph _ _ hh => exact calHighOutcome_startLow hh hph hc
  | rest => exact absurd hc hb
  | counted => exact absurd hc hb
  | timedOut => exact absurd ((failedAt_phase _ b).symm.trans hc) nofun
  | _ => exact absurd hc nofun

/-- Settles O43: of the steps of the machine only a tick can enter the low hold. -/
theorem noStartSignalInsideTheInterval : Obligations.NoStartSignalInsideTheInterval := by
  intro s t h hs ht
  rcases step_next_cases h with ⟨r, _, _, hblk⟩ | ⟨_, _, _, hblk⟩ | ⟨_, hblk⟩ | ⟨_, hblk⟩
  · obtain ⟨pv, pc, o, i, hframe⟩ := accessBlock_frame r s.blk
    rw [hblk, hframe] at ht
    exact absurd ht hs
  · rw [hblk] at ht
    exact absurd ht hs
  · simp only [hblk, tickBlock, timeAdvance_phase, timeAdvance_lineOe, timeAdvance_lineOut, timeAdvance_cnt,
      timeAdvance_bitcnt] at ht ⊢
    exact seqOutcome_startLow (seqStep_outcome _ _ _) hs ht
  · rw [hblk] at ht
    exact absurd ht nofun

/-! ## A tick of a wait -/

/-- What a wait phase does at its end, with the measured duration (spec/40_pulse_width.md R135). -/
def waitEnd (p : Params) (b : Block) (d : Dur) : Block :=
  match b.phase with
  | .wResp => respEnd b
  | .wAckL => ackLowEnd b d b
  | .wAckH => ackHighEnd b d b
  | .wLead => leadEnd b d b
  | .wHigh => highEnd p b d b
  | _ => b

/-- The sequencer step of a wait phase: off the level the wait ends, at the level it times out or counts. -/
theorem seqStep_wait (p : Params) (lvl : Bool) {b : Block} (hs : sampling b.phase = true) (hne : b.phase ≠ .settle) :
    seqStep p lvl b =
      if lvl ≠ waitLevel b.phase then waitEnd p b (b.cnt + 1)
      else if waitBound p b ≤ (b.cnt + 1).toNat then failedAt (stageCode (waitStage b)) b
      else { b with cnt := b.cnt + 1 } := by
  rw [← timeout_eq]
  cases hph : b.phase with
  | idle => rw [hph] at hs; cases hs
  | startLow => rw [hph] at hs; cases hs
  | settle => exact absurd hph hne
  | _ => simp only [seqStep, waitEnd, hph, waitTick_eq]

/-- The three clauses of one tick of a wait, given its level, bound, stage code and end. -/
theorem seqStep_wait_clauses (p : Params) (lvl : Bool) {b e : Block} {L : Bool} {B : Nat} {g : BitVec 8}
    (hs : sampling b.phase = true) (hne : b.phase ≠ .settle) (hL : waitLevel b.phase = L) (hB : waitBound p b = B)
    (hg : stageCode (waitStage b) = g) (he : waitEnd p b (b.cnt + 1) = e) :
    (lvl = !L → seqStep p lvl b = e) ∧
    (lvl = L → B ≤ (b.cnt + 1).toNat → seqStep p lvl b = failedAt g b) ∧
    (lvl = L → (b.cnt + 1).toNat < B → seqStep p lvl b = { b with cnt := b.cnt + 1 }) := by
  rw [seqStep_wait p lvl hs hne, hL, hB, hg, he]
  refine ⟨fun h => if_pos ?_, fun h hd => ?_, fun h hd => ?_⟩
  · rw [h]
    exact Bool.not_ne_self L
  · rw [if_neg (not_not_intro h), if_pos hd]
  · rw [if_neg (not_not_intro h), if_neg (Nat.not_le.2 hd)]

/-- The bound of the acknowledgement waits by mode (spec/40_pulse_width.md R138). -/
theorem waitBound_ack (p : Params) {b : Block} (h : b.phase = .wResp ∨ b.phase = .wAckL ∨ b.phase = .wAckH) :
    waitBound p b = if b.mode = .cal then p.calTimeoutUs else p.ackTimeoutUs := by
  rcases h with h | h | h <;> cases hm : b.mode <;> simp [waitBound, h, hm]

/-- The end of the acknowledgement low: a calibration records it (spec/41_initiator.md R154). -/
theorem waitEnd_ackLow (p : Params) {b : Block} (h : b.phase = .wAckL) (d : Dur) : waitEnd p b d = { b with
    phase := .wAckH, cnt := 0, scratch := if b.mode = .cal then { b.scratch with ackl := d } else b.scratch } := by
  cases hm : b.mode <;> simp [waitEnd, h, ackLowEnd, hm]

/-- The end of the acknowledgement high: a calibration records it (spec/41_initiator.md R155). -/
theorem waitEnd_ackHigh (p : Params) {b : Block} (h : b.phase = .wAckH) (d : Dur) : waitEnd p b d = { b with
    phase := .wLead, cnt := 0, scratch := if b.mode = .cal then { b.scratch with ackh := d } else b.scratch } := by
  cases hm : b.mode <;> simp [waitEnd, h, ackHighEnd, hm]

/-- Settles O26: the clauses of a wait, for each of the three. -/
theorem acknowledgementWaits : Obligations.AcknowledgementWaits := by
  intro p lvl b
  refine ⟨fun h => ?resp, fun h => ?ackLow, fun h => ?ackHigh⟩
  case resp =>
    have hend : waitEnd p b (b.cnt + 1) = { b with phase := .wAckL, cnt := 0 } := by simp only [waitEnd, h, respEnd]
    refine seqStep_wait_clauses p lvl (L := true) ?_ ?_ ?_ (waitBound_ack p (.inl h)) ?_ hend <;>
      simp [h, sampling, waitLevel, waitStage, stageCode]
  case ackLow =>
    refine seqStep_wait_clauses p lvl (L := false) ?_ ?_ ?_ (waitBound_ack p (.inr (.inl h))) ?_ (waitEnd_ackLow p h _) <;>
      simp [h, sampling, waitLevel, waitStage, stageCode]
  case ackHigh =>
    refine seqStep_wait_clauses p lvl (L := true) ?_ ?_ ?_ (waitBound_ack p (.inr (.inr h))) ?_ (waitEnd_ackHigh p h _) <;>
      simp [h, sampling, waitLevel, waitStage, stageCode]

end Sys2Proof.Machine
end

section
/-! PROOF. Runs of ticks up to the time: what the phases do over the levels of a line, from the low hold to the end of the
acknowledgement. -/
namespace Sys2Proof.Machine

/-! ## Ticks up to the time -/

/-- The block `b` with the time counters of `t` (spec/10_state.md R45). -/
def atTime (t b : Block) : Block := { b with preCnt := t.preCnt, usCnt := t.usCnt, nowMs := t.nowMs }

/-- Ticks with these levels of the line lead from `c` to `d` whatever the time is, which goes on by itself. -/
def Runs (p : Params) (levels : List Bool) (c d : Block) : Prop :=
  ∀ t, ∃ u, tickRun p levels (atTime t c) = atTime u d

/-- A run of ticks, started at the time of its own block. -/
theorem Runs.tickRun_eq {p : Params} {levels : List Bool} {b d : Block} (h : Runs p levels b d) :
    ∃ u, tickRun p levels b = atTime u d :=
  h b

theorem Runs.refl (p : Params) (c : Block) : Runs p [] c c :=
  fun t => ⟨t, rfl⟩

theorem Runs.trans {p : Params} {xs ys : List Bool} {c d e : Block} (h : Runs p xs c d) (h' : Runs p ys d e) :
    Runs p (xs ++ ys) c e := by
  intro t
  obtain ⟨u, hu⟩ := h t
  obtain ⟨v, hv⟩ := h' u
  exact ⟨v, by rw [tickRun_append, hu, hv]⟩

/-- One tick whose sequencer step does not see the time. -/
theorem Runs.tick {p : Params} {lvl : Bool} {c d : Block} (h : ∀ t, seqStep p lvl (atTime t c) = atTime t d) :
    Runs p [lvl] c d := by
  intro t
  obtain ⟨pre, us, ms, htime⟩ := timeAdvance_frame_time (atTime t c) (atTime t d)
  exact ⟨{ t with preCnt := pre, usCnt := us, nowMs := ms }, by rw [tickRun, tickRun, tickBlock, h, htime]; rfl⟩

/-- Ticks of a block at rest. -/
theorem Runs.rest (p : Params) (levels : List Bool) {c : Block} (hi : c.phase = .idle) (hp : c.pendValid = false) :
    Runs p levels c c := by
  intro t
  obtain ⟨pre, us, ms, hrun⟩ := tickRun_rest p levels (b := atTime t c) hi hp
  exact ⟨{ t with preCnt := pre, usCnt := us, nowMs := ms }, hrun⟩

/-! ## Counting -/

/-- Below the limit of its phase, and at the level where the phase is a wait, the sequencer counts. -/
theorem seqStep_counts (p : Params) {lvl : Bool} {b : Block} (hne : b.phase ≠ .idle)
    (hlim : (b.cnt + 1).toNat < phaseLimit p b)
    (hlvl : b.phase ≠ .startLow → b.phase ≠ .settle → lvl = waitLevel b.phase) :
    seqStep p lvl b = { b with cnt := b.cnt + 1 } := by
  cases hph : b.phase with
  | idle => exact absurd hph hne
  | startLow =>
    simp only [phaseLimit, hph] at hlim
    simp only [seqStep, hph, startLowStep, if_neg (Nat.ne_of_lt hlim)]
  | settle =>
    simp only [phaseLimit, hph] at hlim
    simp only [seqStep, hph, settleStep, if_neg (Nat.ne_of_lt hlim)]
  | _ =>
    simp only [phaseLimit, hph] at hlim
    have hl := hlvl (by simp [hph]) (by simp [hph])
    rw [seqStep_wait p lvl (by simp [hph, sampling]) (by simp [hph]), if_neg (not_not_intro hl), if_neg (Nat.not_le.2 hlim)]
    simp only [hph]

/-- A phase entered with the count 0 has counted its ticks, as long as they stay below its limit. -/
theorem Runs.count (p : Params) {c : Block} (hne : c.phase ≠ .idle) (h0 : c.cnt = 0) (levels : List Bool)
    (hlim : levels.length ≤ phaseLimit p c - 1) (hmax : levels.length ≤ 65535)
    (hlvl : c.phase ≠ .startLow → c.phase ≠ .settle → ∀ l ∈ levels, l = waitLevel c.phase) :
    Runs p levels c { c with cnt := BitVec.ofNat 16 levels.length } := by
  induction levels using List.reverseRecOn with
  | nil =>
    rw [List.length_nil, show BitVec.ofNat 16 0 = c.cnt from h0.symm]
    exact .refl p c
  | append_singleton xs x ih =>
    rw [List.length_append, List.length_singleton] at hlim hmax ⊢
    have hsucc : BitVec.ofNat 16 xs.length + 1 = BitVec.ofNat 16 (xs.length + 1) := (BitVec.ofNat_add _ _).symm
    have hlt : (BitVec.ofNat 16 xs.length + 1).toNat < phaseLimit p c := by
      rw [hsucc, BitVec.toNat_ofNat]
      omega
    refine (ih (by omega) (by omega) fun ha hb l hl => hlvl ha hb l (List.mem_append_left _ hl)).trans (.tick fun t => ?_)
    have hstep := seqStep_counts p (lvl := x) (b := atTime t { c with cnt := BitVec.ofNat 16 xs.length }) hne hlt
      fun ha hb => hlvl ha hb x (by simp)
    rw [hstep, ← hsucc]
    rfl

/-! ## The low hold -/

/-- A tick of the low hold, whatever the line does (spec/41_initiator.md R152). -/
theorem seqStep_startLow (p : Params) (lvl : Bool) {b : Block} (h : b.phase = .startLow) :
    ((b.cnt + 1).toNat ≠ p.startLowUs → seqStep p lvl b = { b with cnt := b.cnt + 1 }) ∧
    ((b.cnt + 1).toNat = p.startLowUs → b.op = 5 → seqStep p lvl b = { b with
      lineOe := false, lastStartMs := b.nowMs, tsValid := true, err := 0x00, done := true, phase := .idle }) ∧
    ((b.cnt + 1).toNat = p.startLowUs → b.op ≠ 5 → seqStep p lvl b = { b with
      lineOe := false, lastStartMs := b.nowMs, tsValid := true, phase := .wResp, cnt := 0 }) := by
  simp only [seqStep, h, startLowStep]
  refine ⟨fun hc => if_neg hc, fun hc ho => ?_, fun hc ho => ?_⟩
  · rw [if_pos hc, if_pos ho]
    rfl
  · rw [if_pos hc, if_neg ho]

/-- Settles O25: the low hold counts its ticks up to the one that reaches START_LOW_US, which sees the time of the ticks
before it. -/
theorem lowHoldAndRelease : Obligations.LowHoldAndRelease := by
  refine ⟨fun p lvl b h => seqStep_startLow p lvl h, fun p levels b hp hph h0 hoe hout => ?_⟩
  have hhi := hp.startLowUs_hi
  have hhold (xs : List Bool) (hlen : xs.length < p.startLowUs) :
      ∃ u, tickRun p xs b = atTime u { b with cnt := BitVec.ofNat 16 xs.length } := by
    have hlim : phaseLimit p b = p.startLowUs := by simp only [phaseLimit, hph]
    exact (Runs.count p (by simp [hph]) h0 xs (by omega) (by omega) fun ha => absurd hph ha).tickRun_eq
  refine ⟨fun hlen => ?held, fun hlen => ?released⟩
  case held =>
    obtain ⟨u, hu⟩ := hhold levels hlen
    rw [hu]
    exact ⟨hph, hoe, hout⟩
  case released =>
    have hlo := hp.startLowUs_lo
    obtain ⟨xs, x, rfl⟩ : ∃ xs x, levels = xs ++ [x] := by
      refine ⟨levels.dropLast, levels.getLast ?_, (List.dropLast_append_getLast _).symm⟩
      rintro rfl
      simp at hlen
      omega
    rw [List.length_append, List.length_singleton] at hlen
    obtain ⟨u, hu⟩ := hhold xs (by omega)
    have hc : ((atTime u { b with cnt := BitVec.ofNat 16 xs.length }).cnt + 1).toNat = p.startLowUs := by
      show (BitVec.ofNat 16 xs.length + 1#16).toNat = p.startLowUs
      rw [← BitVec.ofNat_add, BitVec.toNat_ofNat]
      omega
    obtain ⟨_, hstart, hrelease⟩ := seqStep_startLow p x (b := atTime u { b with cnt := BitVec.ofNat 16 xs.length }) hph
    rw [List.dropLast_concat, tickRun_append, hu, tickRun, tickRun, tickBlock]
    by_cases ho : b.op = 5
    · rw [hstart hc ho]
      simp only [timeAdvance_phase, timeAdvance_lineOe, timeAdvance_tsValid, timeAdvance_lastStartMs, if_pos ho, and_self]
    · rw [hrelease hc ho]
      simp only [timeAdvance_phase, timeAdvance_lineOe, timeAdvance_tsValid, timeAdvance_lastStartMs, if_neg ho, and_self]

/-! ## A whole wait -/

/-- A wait entered with the count 0 whose line leaves the level at its tick `k + 1`, within the bound, ends there; what it
does at its end must not see the time. -/
theorem Runs.wait (p : Params) {c d : Block} {L : Bool} {k : Nat} (hs : sampling c.phase = true) (hne : c.phase ≠ .settle)
    (hL : waitLevel c.phase = L) (h0 : c.cnt = 0) (hk : k ≤ waitBound p c - 1) (hmax : k ≤ 65535)
    (hend : ∀ t, waitEnd p (atTime t { c with cnt := BitVec.ofNat 16 k }) (BitVec.ofNat 16 (k + 1)) = atTime t d) :
    Runs p (List.replicate k L ++ [!L]) c d := by
  have hi : c.phase ≠ .idle := by intro h; rw [h] at hs; cases hs
  have hlow : c.phase ≠ .startLow := by intro h; rw [h] at hs; cases hs
  have hlim : phaseLimit p c = waitBound p c := by
    unfold phaseLimit
    split
    · exact absurd ‹_› hlow
    · exact absurd ‹_› hne
    · rfl
  have hcount := Runs.count p hi h0 (List.replicate k L) (by rw [List.length_replicate]; omega) (by simpa using hmax)
    fun _ _ l hl => by rw [hL, List.eq_of_mem_replicate hl]
  rw [List.length_replicate] at hcount
  refine hcount.trans (.tick fun t => ?_)
  have hoff : (!L) ≠ waitLevel c.phase := by rw [hL]; exact Bool.not_ne_self L
  have hstep := seqStep_wait p (!L) (b := atTime t { c with cnt := BitVec.ofNat 16 k }) hs hne
  rw [hstep, ← hend t]
  exact (if_pos hoff).trans (by rw [BitVec.ofNat_add]; rfl)

/-! ## The acknowledgement -/

/-- The acknowledgement as both modes see it: the line high up to the `resp`-th tick after the release, low for `ackl`
ticks, high for `ackh`, and the first tick of the first lead-in. A calibration records its two halves. -/
theorem Runs.acknowledgement (p : Params) {c : Block} {resp ackl ackh B : Nat} (hph : c.phase = .wResp) (h0 : c.cnt = 0)
    (hB : (if c.mode = .cal then p.calTimeoutUs else p.ackTimeoutUs) = B) (hmax : B ≤ 65535)
    (hr1 : 1 ≤ resp) (hr : resp ≤ B) (hl1 : 1 ≤ ackl) (hl : ackl ≤ B) (hh1 : 1 ≤ ackh) (hh : ackh ≤ B) :
    Runs p (List.replicate (resp - 1) true ++ List.replicate ackl false ++ List.replicate ackh true ++ [false]) c
      { c with
        phase := .wLead
        cnt := 0
        scratch := if c.mode = .cal then { c.scratch with ackl := BitVec.ofNat 16 ackl, ackh := BitVec.ofNat 16 ackh }
          else c.scratch } := by
  obtain ⟨r, rfl⟩ : ∃ r, resp = r + 1 := ⟨resp - 1, by omega⟩
  obtain ⟨l, rfl⟩ : ∃ l, ackl = l + 1 := ⟨ackl - 1, by omega⟩
  obtain ⟨h, rfl⟩ : ∃ h, ackh = h + 1 := ⟨ackh - 1, by omega⟩
  have hlevels : List.replicate (r + 1 - 1) true ++ List.replicate (l + 1) false ++ List.replicate (h + 1) true ++ [false] =
      List.replicate r true ++ [false] ++ (List.replicate l false ++ [true]) ++ (List.replicate h true ++ [false]) := by
    simp [List.replicate_succ]
  have hbound {b : Block} {k : Nat} (hk : k + 1 ≤ B) (hb : b.phase = .wResp ∨ b.phase = .wAckL ∨ b.phase = .wAckH)
      (hm : b.mode = c.mode) : k ≤ waitBound p b - 1 := by
    rw [waitBound_ack p hb, hm, hB]
    omega
  have toAckLow : Runs p (List.replicate r true ++ [false]) c { c with phase := .wAckL, cnt := 0 } := by
    refine .wait p (by simp [hph, sampling]) (by simp [hph]) (by rw [hph]; rfl) h0 (hbound hr (.inl hph) rfl) (by omega)
      fun t => ?_
    simp only [waitEnd, atTime, hph, respEnd]
  have toAckHigh : Runs p (List.replicate l false ++ [true]) { c with phase := .wAckL, cnt := 0 } { c with
      phase := .wAckH
      cnt := 0
      scratch := if c.mode = .cal then { c.scratch with ackl := BitVec.ofNat 16 (l + 1) } else c.scratch } := by
    refine .wait p rfl nofun rfl rfl (hbound hl (.inr (.inl rfl)) rfl) (by omega) fun t => ?_
    rw [waitEnd_ackLow p rfl]
    rfl
  rw [hlevels]
  refine (toAckLow.trans toAckHigh).trans (.wait p rfl nofun rfl rfl (hbound hh (.inr (.inr rfl)) rfl) (by omega) fun t => ?_)
  rw [waitEnd_ackHigh p rfl]
  cases c.mode <;> simp [atTime]

end Sys2Proof.Machine
end

section
/-! PROOF. The decode of a transmission: the levels of its bits cut where the decoder's phases end, one bit from the end of
the one before it, and the frame by induction over the bits. -/
namespace Sys2Proof.Machine

/-! ## The levels of a transmission -/

/-- The levels of bits, and the line low for `tail` ticks after them. -/
def bitsThenLow (bits : List LineBit) (tail : Nat) : List Bool := bits.flatMap bitLevels ++ List.replicate tail false

/-- Where every lead-in and the end are low for `m` ticks, the levels begin with `m` low ticks. -/
theorem bitsThenLow_split {bits : List LineBit} {tail m : Nat} (hb : ∀ x ∈ bits, m ≤ x.lead) (ht : m ≤ tail) :
    bitsThenLow bits tail = List.replicate m false ++ (bitsThenLow bits tail).drop m := by
  obtain ⟨rest, hrest⟩ : ∃ rest, bitsThenLow bits tail = List.replicate m false ++ rest := by
    cases bits with
    | nil =>
      obtain ⟨n, rfl⟩ := Nat.exists_eq_add_of_le ht
      exact ⟨List.replicate n false, by rw [← List.replicate_add]; rfl⟩
    | cons x xs =>
      obtain ⟨n, hn⟩ := Nat.exists_eq_add_of_le (hb x (by simp))
      exact ⟨List.replicate n false ++ List.replicate x.high true ++ bitsThenLow xs tail, by
        simp only [bitsThenLow, List.flatMap_cons, bitLevels, hn, List.replicate_add, List.append_assoc]⟩
  rw [hrest, List.drop_left' List.length_replicate]

/-- With `used` ticks of its first lead-in gone, the levels are the rest of the first bit, `m` low ticks after its falling
edge, and the levels of the other bits without those. -/
theorem bitsThenLow_cons_drop {x : LineBit} {xs : List LineBit} {tail used m : Nat} (hu : used ≤ x.lead)
    (hb : ∀ y ∈ xs, m ≤ y.lead) (ht : m ≤ tail) :
    (bitsThenLow (x :: xs) tail).drop used =
      List.replicate (x.lead - used) false ++ List.replicate x.high true ++ List.replicate m false ++
        (bitsThenLow xs tail).drop m := by
  have hcons : bitsThenLow (x :: xs) tail =
      List.replicate x.lead false ++ (List.replicate x.high true ++ bitsThenLow xs tail) := by simp [bitsThenLow, bitLevels]
  rw [hcons, List.drop_append_of_le_length (by simpa using hu), List.drop_replicate, List.append_assoc, List.append_assoc,
    ← bitsThenLow_split hb ht]

/-- A transmission is its acknowledgement up to the first tick of the first lead-in, and the rest of its bits. -/
theorem transmission_split {resp ackl ackh tail : Nat} {bits : List LineBit} (hb : ∀ x ∈ bits, 1 ≤ x.lead) (ht : 1 ≤ tail) :
    transmission resp ackl ackh bits ++ List.replicate tail false =
      List.replicate (resp - 1) true ++ List.replicate ackl false ++ List.replicate ackh true ++ [false] ++
        (bitsThenLow bits tail).drop 1 := by
  have hsplit := bitsThenLow_split hb ht
  rw [transmission, List.append_assoc, List.append_assoc _ [false]]
  exact congrArg _ hsplit

/-! ## One bit of a decode -/

/-- The settle delay: the sample is the level at its last tick, whatever the line does before (spec/43_decoder.md R182). -/
theorem Runs.sample {p : Params} (hp : p.Valid) {c : Block} {levels : List Bool} (lvl : Bool) (hph : c.phase = .settle)
    (h0 : c.cnt = 0) (hlen : levels.length + 1 = p.settleUs) :
    Runs p (levels ++ [lvl]) c
      { c with acc := shiftIn c.acc lvl, bitcnt := c.bitcnt + 1, phase := .wHigh, cnt := 0 } := by
  have hhi := hp.settleUs_hi
  have hlim : phaseLimit p c = p.settleUs := by simp only [phaseLimit, hph]
  have hlast : (BitVec.ofNat 16 levels.length + 1).toNat = p.settleUs := by
    rw [show BitVec.ofNat 16 levels.length + 1 = BitVec.ofNat 16 (levels.length + 1) from (BitVec.ofNat_add _ _).symm,
      BitVec.toNat_ofNat]
    omega
  refine (Runs.count p (by simp [hph]) h0 levels (by omega) (by omega) fun _ hne => absurd hph hne).trans (.tick fun t => ?_)
  simp only [seqStep, atTime, hph, settleStep, if_pos hlast]

/-- The block when the high phase of a bit ends: the bit is in the accumulator (spec/43_decoder.md R182, R183), and the
wait of the high phase has counted what was left of it after the sample. -/
def bitReceived (p : Params) (x : LineBit) (c : Block) : Block :=
  { c with
    acc := shiftIn c.acc x.value
    bitcnt := c.bitcnt + 1
    phase := .wHigh
    cnt := BitVec.ofNat 16 (x.high - p.settleUs - 1) }

/-- The low ticks after the falling edge of a bit up to the end of its reception: a 1 ends at the edge, a 0 one tick after
its sample. -/
def lowsSeen (p : Params) (x : LineBit) : Nat := max 1 (p.settleUs + 2 - x.high)

theorem lowsSeen_le {p : Params} {x : LineBit} (hx : 1 ≤ x.high) : lowsSeen p x ≤ p.settleUs + 1 := by
  unfold lowsSeen
  omega

/-- The levels from a bit's rising edge: the end of its lead-in, the settle delay with the bit's value at its last tick,
and what is left of the high phase with the end of it. -/
theorem bit_levels_by_phase {p : Params} {t : Profile} {x : LineBit} (hs : 1 ≤ p.settleUs) (hx : BitDecodable p t x) :
    ∃ settling, settling.length + 1 = p.settleUs ∧
      List.replicate x.high true ++ List.replicate (lowsSeen p x) false =
        [true] ++ (settling ++ [x.value]) ++ (List.replicate (x.high - p.settleUs - 1) true ++ [false]) := by
  have hpos := hx.high_pos
  rw [hx.value, lowsSeen, ← List.replicate_one (a := true), ← List.replicate_one (a := false)]
  by_cases hone : p.settleUs < x.high
  · refine ⟨List.replicate (p.settleUs - 1) true, by simp; omega, ?_⟩
    rw [decide_eq_true hone, ← List.replicate_one (a := true), ← List.append_assoc]
    simp only [List.replicate_append_replicate]
    congr 2 <;> omega
  · refine ⟨List.replicate (x.high - 1) true ++ List.replicate (p.settleUs - x.high) false, by simp; omega, ?_⟩
    rw [decide_eq_false hone, ← List.replicate_one (a := false), show x.high - p.settleUs - 1 = 0 by omega,
      List.replicate_zero, List.nil_append, List.append_assoc (List.replicate (x.high - 1) true), ← List.append_assoc,
      List.append_assoc]
    simp only [List.replicate_append_replicate]
    congr 2 <;> omega

/-- A bit of a decode, from its lead-in with `used` ticks gone to the end of its high phase. -/
theorem Runs.decodeBit {p : Params} (hp : p.Valid) {c : Block} {x : LineBit} {used : Nat} (hph : c.phase = .wLead)
    (hm : c.mode = .dec) (h0 : c.cnt = 0) (hmax : c.profile.bitLeadLow.toNat + p.leadSlackUs ≤ 65535)
    (hx : BitDecodable p c.profile x) (hu : 1 ≤ used) :
    Runs p (List.replicate (x.lead - used) false ++ List.replicate x.high true ++ List.replicate (lowsSeen p x) false) c
      (decHighEnd (bitReceived p x c) (bitReceived p x c)) := by
  have hlead := hx.lead_hi
  have hhigh := hx.high_hi
  have hone := c.profile.bitHighOne.isLt
  have hleadBound : waitBound p c = c.profile.bitLeadLow.toNat + p.leadSlackUs := by simp only [waitBound, hm, hph]
  obtain ⟨settling, hlen, hlevels⟩ := bit_levels_by_phase hp.settleUs_lo hx
  have toSettle : Runs p (List.replicate (x.lead - used) false ++ [true]) c { c with phase := .settle, cnt := 0 } := by
    refine .wait p (by simp [hph, sampling]) (by simp [hph]) (by rw [hph]; rfl) h0 (by omega) (by omega) fun t => ?_
    simp only [waitEnd, atTime, hph, leadEnd, hm, decLeadEnd]
  have toHigh := Runs.sample hp (c := { c with phase := .settle, cnt := 0 }) x.value rfl rfl hlen
  have toEnd : Runs p (List.replicate (x.high - p.settleUs - 1) true ++ [false])
      { c with acc := shiftIn c.acc x.value, bitcnt := c.bitcnt + 1, phase := .wHigh, cnt := 0 }
      (decHighEnd (bitReceived p x c) (bitReceived p x c)) := by
    refine .wait p rfl nofun rfl rfl ?bound (by omega) fun t => ?done
    case bound =>
      simp only [waitBound, hm]
      omega
    case done =>
      simp only [waitEnd, atTime, highEnd, hm, decHighEnd, decodeDone, bitReceived]
      split_ifs <;> rfl
  rw [List.append_assoc, hlevels]
  simpa only [List.append_assoc] using (toSettle.trans toHigh).trans toEnd

/-! ## The frame -/

/-- Samples shifted in one after another make the number of their bits (spec/43_decoder.md R183). -/
theorem foldl_shiftIn (bits : List Bool) (n : Nat) :
    bits.foldl shiftIn (BitVec.ofNat 40 n) = BitVec.ofNat 40 (bits.foldl (fun n b => 2 * n + b.toNat) n) := by
  induction bits generalizing n with
  | nil => rfl
  | cons b bits ih =>
    have hshift : shiftIn (BitVec.ofNat 40 n) b = BitVec.ofNat 40 (2 * n + b.toNat) := by
      apply BitVec.eq_of_toNat_eq
      rw [shiftIn_toNat, BitVec.toNat_ofNat, BitVec.toNat_ofNat]
      omega
    rw [List.foldl_cons, hshift, ih, List.foldl_cons]

@[simp] theorem decodeDone_phase (r w : Block) : (decodeDone r w).phase = .idle := by
  unfold decodeDone
  split <;> rfl

@[simp] theorem decodeDone_pendValid (r w : Block) : (decodeDone r w).pendValid = w.pendValid := by
  unfold decodeDone
  split <;> rfl

/-- The block when the last of `bits` ends, of a decode that stood in the high phase of `w`. -/
def frameReceived (bits : List LineBit) (k : Dur) (w : Block) : Block :=
  { w with acc := (bits.map LineBit.value).foldl shiftIn w.acc, bitcnt := 40, phase := .wHigh, cnt := k }

/-- The bits that a decode still lacks, from the end of a high phase to the end of the decode: by induction over them, each
taking up the levels where the one before it ended. -/
theorem Runs.decodeBits {p : Params} (hp : p.Valid) {tail : Nat} (ht : p.settleUs + 1 ≤ tail) (bits : List LineBit)
    {w : Block} {used : Nat} (hu : 1 ≤ used) (hus : used ≤ p.settleUs + 1) (hph : w.phase = .wHigh) (hm : w.mode = .dec)
    (hpend : w.pendValid = false) (hmax : w.profile.bitLeadLow.toNat + p.leadSlackUs ≤ 65535)
    (hcount : w.bitcnt.toNat + bits.length = 40) (hbits : ∀ x ∈ bits, BitDecodable p w.profile x) :
    ∃ k, Runs p ((bitsThenLow bits tail).drop used) (decHighEnd w w)
      (decodeDone (frameReceived bits k w) (frameReceived bits k w)) := by
  induction bits generalizing w used with
  | nil =>
    have hforty : w.bitcnt = 40 := BitVec.eq_of_toNat_eq hcount
    have hw : frameReceived [] w.cnt w = w := by
      rw [frameReceived, ← hforty, ← hph]
      rfl
    refine ⟨w.cnt, ?_⟩
    rw [hw, decHighEnd, if_pos hforty]
    exact .rest p _ (decodeDone_phase w w) ((decodeDone_pendValid w w).trans hpend)
  | cons x xs ih =>
    rw [List.length_cons] at hcount
    have hx : BitDecodable p w.profile x := hbits x (by simp)
    have hlows {y : LineBit} (hy : y ∈ xs) : lowsSeen p x ≤ y.lead :=
      (lowsSeen_le hx.high_pos).trans (hbits y (by simp [hy])).lead_lo
    have hnot : w.bitcnt ≠ 40 := by
      intro h
      rw [h, show (40 : BitVec 6).toNat = 40 from rfl] at hcount
      omega
    have hbit := Runs.decodeBit hp (c := { w with phase := .wLead, cnt := 0 }) rfl hm rfl hmax hx hu
    obtain ⟨k, hrest⟩ := ih (w := bitReceived p x { w with phase := .wLead, cnt := 0 }) (used := lowsSeen p x)
      (le_max_left _ _) (lowsSeen_le hx.high_pos) rfl hm hpend hmax
      (by
        have hsucc : (w.bitcnt + 1).toNat = w.bitcnt.toNat + 1 := bitcnt_succ_toNat (n := 40) (by omega) (by omega)
        show (w.bitcnt + 1).toNat + xs.length = 40
        omega)
      (fun y hy => hbits y (by simp [hy]))
    refine ⟨k, ?_⟩
    rw [bitsThenLow_cons_drop (hus.trans hx.lead_lo) (fun y hy => hlows hy) ((lowsSeen_le hx.high_pos).trans ht), decHighEnd,
      if_neg hnot]
    exact hbit.trans hrest

/-- Settles O53: the acknowledgement, the forty bits, and the verdict of the checksum. -/
theorem decodeReceivesTheTransmission : Obligations.DecodeReceivesTheTransmission := by
  intro p b resp ackl ackh tail bits hp hph hm _ h0 hb0 hacc hpend hr1 hr hl1 hl hh1 hh hmax hlen hbits ht x e
  have hleads (y : LineBit) (hy : y ∈ bits) : 1 ≤ y.lead := Nat.one_le_of_lt (hbits y hy).lead_lo
  have hack := Runs.acknowledgement p hph h0 (by rw [hm]; rfl) hp.ackTimeoutUs_hi hr1 hr hl1 hl hh1 hh
  obtain ⟨k, hframe⟩ := Runs.decodeBits hp ht bits (w := { b with phase := .wHigh, cnt := 0 }) (used := 1) le_rfl (by omega)
    rfl hm hpend hmax (by rw [hlen, hb0]; rfl) hbits
  have hstart : decHighEnd { b with phase := .wHigh, cnt := 0 } { b with phase := .wHigh, cnt := 0 } =
      { b with phase := .wLead, cnt := 0 } := by simp [decHighEnd, hb0]
  rw [if_neg (by simp [hm])] at hack
  rw [hstart] at hframe
  have hvalue : (bits.map LineBit.value).foldl shiftIn b.acc = x := by
    rw [hacc]
    exact foldl_shiftIn _ 0
  obtain ⟨u, hu⟩ := (hack.trans hframe).tickRun_eq
  rw [← transmission_split hleads (by omega)] at hu
  have he : e = atTime u (decodeDone (frameReceived bits k { b with phase := .wHigh, cnt := 0 })
    (frameReceived bits k { b with phase := .wHigh, cnt := 0 })) := hu
  rw [he]
  simp only [decodeDone, frameReceived, hvalue]
  cases hsum : checksumOk x with
  | true => exact ⟨rfl, rfl, rfl, rfl, rfl, rfl, fun _ => ⟨rfl, rfl, rfl⟩, nofun⟩
  | false => exact ⟨rfl, rfl, rfl, rfl, rfl, rfl, nofun, fun _ => ⟨rfl, rfl, rfl⟩⟩

end Sys2Proof.Machine
end

section
/-! PROOF. The calibration of a transmission: one pulse, the pulses of a class already seen, and the pulse that brings the
second class. -/
namespace Sys2Proof.Machine

/-! ## The scratch -/

/-- A duration that a wait of a calibration measures is classified by its number of ticks. -/
theorem classOne_ofNat (p : Params) {n : Nat} (h : n ≤ 65535) :
    classOne p (BitVec.ofNat 16 n) = decide (p.classThreshUs < n) := by
  rw [classOne, BitVec.toNat_ofNat, Nat.mod_eq_of_lt (by omega)]

/-- A second duration of a class is not recorded (spec/42_calibrator.md R162). -/
theorem scratchAfterHigh_same_class {p : Params} {m n : Nat} (hm : m ≤ 65535) (hn : n ≤ 65535)
    (h : p.classThreshUs < n ↔ p.classThreshUs < m) (sc : Scratch) :
    scratchAfterHigh p (BitVec.ofNat 16 n) (scratchAfterHigh p (BitVec.ofNat 16 m) sc) =
      scratchAfterHigh p (BitVec.ofNat 16 m) sc := by
  by_cases hc : p.classThreshUs < m <;> simp [scratchAfterHigh, classOne_ofNat p hm, classOne_ofNat p hn, h, hc]

/-- The first duration of a scratch leaves one class unseen. -/
theorem scratchAfterHigh_first (p : Params) (d : Dur) {sc : Scratch} (h0 : sc.seen0 = false) (h1 : sc.seen1 = false) :
    ¬((scratchAfterHigh p d sc).seen0 = true ∧ (scratchAfterHigh p d sc).seen1 = true) := by
  cases hc : classOne p d <;> simp [scratchAfterHigh, h0, h1, hc]

/-- The first durations of the two classes, in either order (spec/42_calibrator.md R162). -/
theorem scratchAfterHigh_both {p : Params} {m n : Nat} (hm : m ≤ 65535) (hn : n ≤ 65535)
    (h : p.classThreshUs < n ↔ ¬p.classThreshUs < m) {sc : Scratch} (h0 : sc.seen0 = false) (h1 : sc.seen1 = false) :
    scratchAfterHigh p (BitVec.ofNat 16 n) (scratchAfterHigh p (BitVec.ofNat 16 m) sc) = { sc with
      h0 := BitVec.ofNat 16 (if p.classThreshUs < m then n else m)
      h1 := BitVec.ofNat 16 (if p.classThreshUs < m then m else n)
      seen0 := true
      seen1 := true } := by
  by_cases hc : p.classThreshUs < m <;>
    simp [scratchAfterHigh, classOne_ofNat p hm, classOne_ofNat p hn, h, hc, h0, h1]

/-! ## The end of a pulse -/

/-- With one class missing and pulses left, the next pulse begins (spec/42_calibrator.md R162). -/
theorem calHighEnd_next {p : Params} {b : Block} {d : Dur}
    (hsc : ¬((scratchAfterHigh p d b.scratch).seen0 = true ∧ (scratchAfterHigh p d b.scratch).seen1 = true))
    (hn : (b.bitcnt + 1).toNat ≠ p.calMaxBits) :
    calHighEnd p b d b = { pulseCounted (scratchAfterHigh p d b.scratch) b with phase := .wLead, cnt := 0 } := by
  rcases calHighEnd_cases p b d with ⟨h0, h1, _⟩ | ⟨_, hlast, _⟩ | ⟨_, _, heq⟩
  · exact absurd ⟨h0, h1⟩ hsc
  · exact absurd hlast hn
  · exact heq

/-- With both classes seen, BEGIN, RECOVER and MEASURE end OK with the profile written (spec/42_calibrator.md R163);
MEASURE leaves the lifecycle. -/
theorem calHighEnd_succeeds {p : Params} {b : Block} {d : Dur} {sc : Scratch} (hsc : scratchAfterHigh p d b.scratch = sc)
    (h0 : sc.seen0 = true) (h1 : sc.seen1 = true) (ho : b.op = 1 ∨ b.op = 2 ∨ b.op = 4) :
    calHighEnd p b d b = complete .ok { profileWritten sc b with
      lstate := if b.op = 4 then b.lstate else .ready
      recovering := if b.op = 4 then b.recovering else false } := by
  subst hsc
  have heq : calHighEnd p b d b = calSuccess p (scratchAfterHigh p d b.scratch).h0
      (scratchAfterHigh p d b.scratch).h1 b (pulseCounted (scratchAfterHigh p d b.scratch) b) := by
    rcases calHighEnd_cases p b d with ⟨_, _, heq⟩ | ⟨hnot, _⟩ | ⟨hnot, _⟩
    · exact heq
    · exact absurd ⟨h0, h1⟩ hnot
    · exact absurd ⟨h0, h1⟩ hnot
  rw [heq]
  rcases ho with ho | ho | ho <;> simp [calSuccess, ho, profileWritten, pulseCounted]

/-! ## One pulse of a calibration -/

/-- The ticks of a pulse from the one after its falling edge to the next falling edge. -/
def pulseTicks (x : LineBit) : List Bool :=
  List.replicate (x.lead - 1) false ++ List.replicate x.high true ++ [false]

/-- After the first tick of the first lead-in, the levels of bits up to the next falling edge are their ticks one bit after
another. -/
theorem bitsThenLow_drop_one {bits : List LineBit} (hb : ∀ x ∈ bits, 1 ≤ x.lead) :
    (bitsThenLow bits 1).drop 1 = bits.flatMap pulseTicks := by
  induction bits with
  | nil => rfl
  | cons x xs ih =>
    have hxs (y : LineBit) (hy : y ∈ xs) : 1 ≤ y.lead := hb y (by simp [hy])
    rw [bitsThenLow_cons_drop (hb x (by simp)) hxs le_rfl, ih hxs]
    rfl

/-- A calibration that has counted `n` pulses and measured the scratch `sc`. -/
def afterPulses (sc : Scratch) (n : Nat) (c : Block) : Block := { c with scratch := sc, bitcnt := BitVec.ofNat 6 n }

/-- The scratch with the lead-in of a pulse that `n` pulses precede: the first one's is recorded (spec/42_calibrator.md
R161). -/
def leadRecorded (x : LineBit) (n : Nat) (sc : Scratch) : Scratch :=
  if n = 0 then { sc with lead := BitVec.ofNat 16 x.lead } else sc

/-- The block at the end of the high phase of a pulse, before the tick that measures it. -/
def pulseHigh (x : LineBit) (sc : Scratch) (n : Nat) (c : Block) : Block :=
  { afterPulses (leadRecorded x n sc) n c with phase := .wHigh, cnt := BitVec.ofNat 16 (x.high - 1) }

/-- What the calibration of BEGIN, RECOVER or MEASURE leaves that ends OK with the scratch `sc` after `n` pulses
(spec/42_calibrator.md R163): the profile is the scratch, and MEASURE leaves the lifecycle. -/
def calibrationEnded (sc : Scratch) (n : Nat) (k : Dur) (c : Block) : Block :=
  complete .ok { afterPulses sc n c with
    cnt := k
    profile := { ack80Low := sc.ackl, ack80High := sc.ackh, bitLeadLow := sc.lead, bitHighZero := sc.h0, bitHighOne := sc.h1 }
    calDone := true
    lstate := if c.op = 4 then c.lstate else .ready
    recovering := if c.op = 4 then c.recovering else false }

/-- The count of pulses goes up by one in the six bits of `bitcnt`. -/
theorem bitcnt_ofNat_succ (n : Nat) : BitVec.ofNat 6 n + 1 = BitVec.ofNat 6 (n + 1) := (BitVec.ofNat_add n 1).symm

section
variable {p : Params} {c : Block} (hp : p.Valid) (hph : c.phase = .wLead) (hm : c.mode = .cal) (h0 : c.cnt = 0)
include hp hph hm h0

/-- A pulse of a calibration, whose end must not see the time. -/
theorem Runs.calPulse {x : LineBit} {sc : Scratch} {n : Nat} {d : Block} (hx : PulseMeasurable p x) (hn : n < p.calMaxBits)
    (hend : ∀ t, calHighEnd p (atTime t (pulseHigh x sc n c)) (BitVec.ofNat 16 x.high) (atTime t (pulseHigh x sc n c)) =
      atTime t d) :
    Runs p (pulseTicks x) (afterPulses sc n c) d := by
  obtain ⟨hlead1, hlead, hhigh1, hhigh⟩ := hx
  have hmax := hp.calTimeoutUs_hi
  have hmaxBits := hp.calMaxBits_hi
  obtain ⟨l, hl⟩ : ∃ l, x.lead = l + 1 := ⟨x.lead - 1, by omega⟩
  obtain ⟨h, hh⟩ : ∃ h, x.high = h + 1 := ⟨x.high - 1, by omega⟩
  have hbound {b : Block} {k : Nat} (hb : b.mode = .cal) (hk : k + 1 ≤ p.calTimeoutUs) : k ≤ waitBound p b - 1 := by
    simp only [waitBound, hb]
    omega
  have hfirst : BitVec.ofNat 6 n = 0 ↔ n = 0 := by
    rw [← BitVec.toNat_inj, BitVec.toNat_ofNat, Nat.mod_eq_of_lt (by omega)]
    rfl
  have hlevels : pulseTicks x = List.replicate l false ++ [true] ++ (List.replicate h true ++ [false]) := by
    simp [pulseTicks, hl, hh, List.replicate_succ]
  have toHigh : Runs p (List.replicate l false ++ [true]) (afterPulses sc n c)
      { afterPulses (leadRecorded x n sc) n c with phase := .wHigh, cnt := 0 } := by
    refine .wait p (by simp [afterPulses, hph, sampling]) (by simp [afterPulses, hph]) (by rw [afterPulses, hph]; rfl) h0
      (hbound hm (by omega)) (by omega) fun t => ?_
    simp only [waitEnd, atTime, afterPulses, hph, leadEnd, hm, calLeadEnd, leadRecorded, hl, hfirst]
    split_ifs <;> rfl
  have toEnd : Runs p (List.replicate h true ++ [false])
      { afterPulses (leadRecorded x n sc) n c with phase := .wHigh, cnt := 0 } d := by
    refine .wait p rfl nofun rfl rfl (hbound hm (by omega)) (by omega) fun t => ?_
    rw [← hend t, pulseHigh, hh]
    simp only [waitEnd, atTime, afterPulses, highEnd, hm, Nat.add_sub_cancel]
  rw [hlevels]
  exact toHigh.trans toEnd

/-- A pulse after which one class is missing and pulses are left. -/
theorem Runs.calPulse_next {x : LineBit} {sc sc' : Scratch} {n : Nat} (hx : PulseMeasurable p x)
    (hsc : scratchAfterHigh p (BitVec.ofNat 16 x.high) (leadRecorded x n sc) = sc')
    (hmissing : ¬(sc'.seen0 = true ∧ sc'.seen1 = true)) (hn : n + 1 < p.calMaxBits) :
    Runs p (pulseTicks x) (afterPulses sc n c) (afterPulses sc' (n + 1) c) := by
  subst hsc
  have hmaxBits := hp.calMaxBits_hi
  refine .calPulse hp hph hm h0 hx (by omega) fun t => ?_
  rw [calHighEnd_next (b := atTime t (pulseHigh x sc n c)) hmissing ?notLast, afterPulses, ← bitcnt_ofNat_succ, ← hph, ← h0]
  case notLast =>
    show (BitVec.ofNat 6 n + 1).toNat ≠ p.calMaxBits
    rw [bitcnt_ofNat_succ, BitVec.toNat_ofNat]
    omega
  rfl

/-- Pulses that add nothing to the scratch are only counted: by induction over them. -/
theorem Runs.calPulses (bits : List LineBit) {sc : Scratch} {n : Nat} (hx : ∀ x ∈ bits, PulseMeasurable p x)
    (hsame : ∀ x ∈ bits, scratchAfterHigh p (BitVec.ofNat 16 x.high) sc = sc)
    (hmissing : ¬(sc.seen0 = true ∧ sc.seen1 = true)) (hn : n + 1 + bits.length < p.calMaxBits) :
    Runs p (bits.flatMap pulseTicks) (afterPulses sc (n + 1) c) (afterPulses sc (n + 1 + bits.length) c) := by
  induction bits generalizing n with
  | nil => exact .refl p _
  | cons x xs ih =>
    rw [List.length_cons] at hn ⊢
    have hfirst := Runs.calPulse_next hp hph hm h0 (n := n + 1) (hx x (by simp)) (hsame x (by simp)) hmissing (by omega)
    have hrest := ih (n := n + 1) (fun y hy => hx y (by simp [hy])) (fun y hy => hsame y (by simp [hy])) (by omega)
    rw [List.flatMap_cons, show n + 1 + (xs.length + 1) = n + 1 + 1 + xs.length by omega]
    exact hfirst.trans hrest

/-- The pulse that brings the second class, of BEGIN, RECOVER or MEASURE. -/
theorem Runs.calPulse_last {x : LineBit} {sc sc' : Scratch} {n : Nat} (hx : PulseMeasurable p x)
    (hsc : scratchAfterHigh p (BitVec.ofNat 16 x.high) (leadRecorded x n sc) = sc')
    (hseen0 : sc'.seen0 = true) (hseen1 : sc'.seen1 = true) (hn : n < p.calMaxBits) (ho : c.op = 1 ∨ c.op = 2 ∨ c.op = 4) :
    Runs p (pulseTicks x) (afterPulses sc n c) (calibrationEnded sc' (n + 1) (BitVec.ofNat 16 (x.high - 1)) c) := by
  subst hsc
  refine .calPulse hp hph hm h0 hx hn fun t => ?_
  rw [calHighEnd_succeeds (b := atTime t (pulseHigh x sc n c)) rfl hseen0 hseen1 ho, calibrationEnded, afterPulses,
    ← bitcnt_ofNat_succ]
  rfl

/-! ## The calibration -/

/-- The scratch `sc` with the lead-in of the first pulse and the first duration of each class. -/
def bothRecorded (p : Params) (first last : LineBit) (sc : Scratch) : Scratch :=
  { sc with
    lead := BitVec.ofNat 16 first.lead
    h0 := BitVec.ofNat 16 (if p.classThreshUs < first.high then last.high else first.high)
    h1 := BitVec.ofNat 16 (if p.classThreshUs < first.high then first.high else last.high)
    seen0 := true
    seen1 := true }

/-- The pulses of a calibration: the first, those of its class, which add nothing, and the first of the other class. -/
theorem Runs.calibration {first last : LineBit} {between : List LineBit} {sc : Scratch}
    (ho : c.op = 1 ∨ c.op = 2 ∨ c.op = 4) (hs0 : sc.seen0 = false) (hs1 : sc.seen1 = false)
    (hbits : ∀ x ∈ first :: between ++ [last], PulseMeasurable p x)
    (hbetween : ∀ x ∈ between, (p.classThreshUs < x.high ↔ p.classThreshUs < first.high))
    (hlast : p.classThreshUs < last.high ↔ ¬p.classThreshUs < first.high) (hn : between.length + 2 ≤ p.calMaxBits) :
    Runs p ((first :: between ++ [last]).flatMap pulseTicks) (afterPulses sc 0 c)
      (calibrationEnded (bothRecorded p first last sc) (between.length + 2) (BitVec.ofNat 16 (last.high - 1)) c) := by
  have hhigh {x : LineBit} (hx : x ∈ first :: between ++ [last]) : x.high ≤ 65535 :=
    (hbits x hx).high_hi.trans hp.calTimeoutUs_hi
  have hmissing := scratchAfterHigh_first p (BitVec.ofNat 16 first.high) (sc := leadRecorded first 0 sc) hs0 hs1
  have hsame (x : LineBit) (hx : x ∈ between) := scratchAfterHigh_same_class (hhigh (x := first) (by simp))
    (hhigh (by simp [hx])) (hbetween x hx) (leadRecorded first 0 sc)
  have hboth := scratchAfterHigh_both (sc := leadRecorded first 0 sc) (hhigh (by simp)) (hhigh (by simp)) hlast hs0 hs1
  have runFirst := Runs.calPulse_next hp hph hm h0 (hbits first (by simp)) rfl hmissing (n := 0) (by omega)
  have runBetween := Runs.calPulses hp hph hm h0 between (n := 0) (fun x hx => hbits x (by simp [hx])) hsame hmissing
    (by omega)
  have runLast := Runs.calPulse_last hp hph hm h0 (n := 0 + 1 + between.length) (hbits last (by simp))
    ((congrArg _ (if_neg (by omega))).trans hboth) rfl rfl (by omega) ho
  have hticks : (first :: between ++ [last]).flatMap pulseTicks =
      pulseTicks first ++ between.flatMap pulseTicks ++ pulseTicks last := by simp
  rw [hticks, show between.length + 2 = 0 + 1 + between.length + 1 by omega]
  exact (runFirst.trans runBetween).trans runLast

end

/-- Settles O54: the acknowledgement and the pulses after it. -/
theorem calibrationMeasuresTheTransmission : Obligations.CalibrationMeasuresTheTransmission := by
  intro p b resp ackl ackh first last between hp hph hm ho h0 hb0 hsc _ hr1 hr hl1 hl hh1 hh hbits hbetween hlast hn e
  have hmaxBits := hp.calMaxBits_hi
  have hleads (x : LineBit) (hx : x ∈ first :: between ++ [last]) : 1 ≤ x.lead := (hbits x hx).lead_pos
  have hack := Runs.acknowledgement p hph h0 (if_pos hm) hp.calTimeoutUs_hi hr1 hr hl1 hl hh1 hh
  have hpulses := Runs.calibration hp (c := { b with phase := .wLead, cnt := 0 })
    (sc := { emptyScratch with ackl := BitVec.ofNat 16 ackl, ackh := BitVec.ofNat 16 ackh }) rfl hm rfl ho rfl rfl hbits
    hbetween hlast hn
  rw [afterPulses, show BitVec.ofNat 6 0 = b.bitcnt from hb0.symm] at hpulses
  rw [if_pos hm, hsc] at hack
  obtain ⟨u, hu⟩ := (hack.trans hpulses).tickRun_eq
  rw [← bitsThenLow_drop_one hleads, ← transmission_split hleads le_rfl] at hu
  rw [show e = _ from hu]
  refine ⟨rfl, rfl, rfl, rfl, ?count, rfl, fun h4 => ⟨if_pos h4, if_pos h4⟩, fun h4 => ⟨if_neg h4, if_neg h4⟩, rfl, rfl,
    rfl⟩
  show (BitVec.ofNat 6 (between.length + 2)).toNat = between.length + 2
  rw [BitVec.toNat_ofNat]
  omega

end Sys2Proof.Machine
end

section
/-! PROOF. One tick of a calibration: its lead-in, its high phase, and what it leaves of the frame. -/
namespace Sys2Proof.Machine

/-! ## The lead-in -/

/-- The end of a calibration's lead-in (spec/42_calibrator.md R161). -/
theorem waitEnd_calLead (p : Params) {b : Block} (hph : b.phase = .wLead) (hm : b.mode = .cal) (d : Dur) :
    waitEnd p b d = { b with
      phase := .wHigh, cnt := 0, scratch := if b.bitcnt = 0 then { b.scratch with lead := d } else b.scratch } := by
  have hend : waitEnd p b d = calLeadEnd b d b := by simp only [waitEnd, hph, leadEnd, hm]
  rw [hend, calLeadEnd]
  split_ifs <;> rfl

/-- The stage of a lead-in's timeout is LEAD_IN on the first bit and INTER_BIT later (spec/40_pulse_width.md R139). -/
theorem stageCode_lead {b : Block} (hph : b.phase = .wLead) :
    stageCode (waitStage b) = if b.bitcnt = 0 then 3 else 5 := by
  simp only [waitStage, hph]
  split_ifs <;> rfl

/-- Every wait of a calibration has the bound CAL_TIMEOUT_US (spec/40_pulse_width.md R138). -/
theorem waitBound_cal (p : Params) {b : Block} (hm : b.mode = .cal) : waitBound p b = p.calTimeoutUs := by
  simp only [waitBound, hm]

/-- Settles O27: the clauses of a wait at the low level. -/
theorem calibrationLeadIn : Obligations.CalibrationLeadIn := by
  intro p lvl b hph hm
  exact seqStep_wait_clauses p lvl (L := false) (by simp [hph, sampling]) (by simp [hph]) (by simp [hph, waitLevel])
    (waitBound_cal p hm) (stageCode_lead hph) (waitEnd_calLead p hph hm _)

/-! ## The high phase -/

/-- ReadStart inside the interval serves the cached frame (spec/43_decoder.md R191). -/
theorem readStart_cached {p : Params} {r : Block} (hi : intervalBusy p r = true) (hf : r.frameValid = true) (w : Block) :
    readStart p r w = complete .ok { w with cached := true } := by
  rw [readStart, if_pos hi, if_pos hf]

/-- ReadStart inside the interval and without a frame answers BUSY (spec/43_decoder.md R191). -/
theorem readStart_busy {p : Params} {r : Block} (hi : intervalBusy p r = true) (hf : r.frameValid = false) (w : Block) :
    readStart p r w = complete .busy w := by
  rw [readStart, if_pos hi, if_neg (by simp [hf])]

/-- ReadStart outside the interval starts a decode (spec/43_decoder.md R191). -/
theorem readStart_decode {p : Params} {r : Block} (hi : intervalBusy p r = false) (w : Block) :
    readStart p r w = decEntry (startSeq .dec w) := by
  rw [readStart, if_neg (by simp [hi])]

section
variable {p : Params} {b : Block} {d : Dur}

/-- The pulse that brings the second class ends the calibration with success (spec/42_calibrator.md R162). -/
theorem calHighEnd_both
    (h : (scratchAfterHigh p d b.scratch).seen0 = true ∧ (scratchAfterHigh p d b.scratch).seen1 = true) :
    calHighEnd p b d b = calSuccess p (scratchAfterHigh p d b.scratch).h0 (scratchAfterHigh p d b.scratch).h1 b
      (pulseCounted (scratchAfterHigh p d b.scratch) b) := by
  rcases calHighEnd_cases p b d with ⟨_, _, heq⟩ | ⟨hnot, _⟩ | ⟨hnot, _⟩
  · exact heq
  · exact absurd h hnot
  · exact absurd h hnot

/-- A READ whose calibration succeeds goes into ReadStart with READY stored (spec/42_calibrator.md R163). -/
theorem calHighEnd_read (h : (scratchAfterHigh p d b.scratch).seen0 = true ∧ (scratchAfterHigh p d b.scratch).seen1 = true)
    (ho : b.op = 3) : calHighEnd p b d b =
      readStart p b { profileWritten (scratchAfterHigh p d b.scratch) b with lstate := .ready, recovering := false } := by
  rw [calHighEnd_both h]
  simp [calSuccess, ho, profileWritten, pulseCounted]

/-- A success that serves no command writes the profile alone (spec/42_calibrator.md R163). -/
theorem calHighEnd_noCommand
    (h : (scratchAfterHigh p d b.scratch).seen0 = true ∧ (scratchAfterHigh p d b.scratch).seen1 = true)
    (h1 : b.op ≠ 1) (h2 : b.op ≠ 2) (h3 : b.op ≠ 3) (h4 : b.op ≠ 4) :
    calHighEnd p b d b = profileWritten (scratchAfterHigh p d b.scratch) b := by
  rw [calHighEnd_both h]
  simp only [calSuccess, h1, h2, h3, h4, or_self, if_false, profileWritten, pulseCounted]

/-- After CAL_MAX_BITS pulses of one class the calibration fails at BIT_HIGH (spec/42_calibrator.md R162, R164). -/
theorem calHighEnd_exhausted (hm : b.mode = .cal)
    (h : ¬((scratchAfterHigh p d b.scratch).seen0 = true ∧ (scratchAfterHigh p d b.scratch).seen1 = true))
    (hn : (b.bitcnt + 1).toNat = p.calMaxBits) :
    calHighEnd p b d b = failedAt 4 (pulseCounted (scratchAfterHigh p d b.scratch) b) := by
  rcases calHighEnd_cases p b d with ⟨h0, h1, _⟩ | ⟨_, _, heq⟩ | ⟨_, hmore, _⟩
  · exact absurd ⟨h0, h1⟩ h
  · exact heq.trans (calFail_eq .bitHigh b (pulseCounted _ b) hm rfl)
  · exact absurd hn hmore

end

/-- Settles O28: the clauses of a wait at the high level, whose end is taken apart by the classes seen and the command. -/
theorem calibrationHighPhase : Obligations.CalibrationHighPhase := by
  intro p lvl b hph hm d one h0 h1 sc counted measured ready both
  have hsc : scratchAfterHigh p d b.scratch = sc := rfl
  obtain ⟨ends, timesOut, counts⟩ := seqStep_wait_clauses p lvl (L := true) (g := 4) (e := calHighEnd p b d b)
    (by simp [hph, sampling]) (by simp [hph]) (by simp [hph, waitLevel]) (waitBound_cal p hm)
    (by simp [waitStage, hph, stageCode]) (by simp only [waitEnd, hph, highEnd, hm, d])
  refine ⟨fun hl hb ho => ?begins, fun hl hb ho => ?measures, fun hl hb ho hi hf => ?readCached,
    fun hl hb ho hi hf => ?readBusy, fun hl hb ho hi => ?readDecodes, fun hl hb o1 o2 o3 o4 => ?noCommand,
    fun hl hb hn => ?exhausted, fun hl hb hn => ?next, timesOut, counts⟩ <;> rw [ends hl]
  case begins =>
    have h4 : b.op ≠ 4 := by rcases ho with ho | ho <;> simp [ho]
    rw [calHighEnd_succeeds hsc hb.1 hb.2 (ho.imp_right .inl), if_neg h4, if_neg h4]
    rfl
  case measures =>
    rw [calHighEnd_succeeds hsc hb.1 hb.2 (.inr (.inr ho)), if_pos ho, if_pos ho]
    rfl
  case readCached =>
    rw [calHighEnd_read hb ho, readStart_cached hi hf]
    rfl
  case readBusy =>
    rw [calHighEnd_read hb ho, readStart_busy hi hf]
    rfl
  case readDecodes =>
    rw [calHighEnd_read hb ho, readStart_decode hi]
    rfl
  case noCommand => exact calHighEnd_noCommand hb o1 o2 o3 o4
  case exhausted => exact calHighEnd_exhausted hm hb hn
  case next => exact calHighEnd_next hb hn

/-! ## The frame state -/

/-- A failure leaves the accumulator and the checksum byte alone. -/
theorem failedAt_acc_csCalc (g : BitVec 8) (b : Block) :
    (failedAt g b).acc = b.acc ∧ (failedAt g b).csCalc = b.csCalc := by
  unfold failedAt
  split <;> exact ⟨rfl, rfl⟩

/-- A block at the start of a READ's decode, as the calibration before it leaves it (spec/42_calibrator.md R163). -/
def ReadDecodeBegun (b c : Block) : Prop := b.op = 3 ∧ c.mode = .dec ∧ c.phase = .startLow ∧ c.acc = 0

/-- The end of a calibration's high phase writes the accumulator only where it starts READ's decode. -/
theorem calHighOutcome_acc {p : Params} {b c : Block} {sc : Scratch} (h : CalHighOutcome p b sc c) :
    c.csCalc = b.csCalc ∧ (c.acc = b.acc ∨ ReadDecodeBegun b c) := by
  cases h with
  | readDecode _ _ ho => exact ⟨rfl, .inr ⟨ho, rfl, rfl, rfl⟩⟩
  | failed =>
    obtain ⟨hacc, hcs⟩ := failedAt_acc_csCalc 4 (pulseCounted sc b)
    exact ⟨hcs, .inl hacc⟩
  | _ => exact ⟨rfl, .inl rfl⟩

/-- A tick of a running calibration writes neither the frame state nor, unless it starts READ's decode, the accumulator
(spec/42_calibrator.md R167): of the sequencer's outcomes those that write them are a dispatch's or a decode's. -/
theorem seqOutcome_cal_frame {p : Params} {lvl : Bool} {b c : Block} (h : SeqOutcome p lvl b c) (hi : b.phase ≠ .idle)
    (hs : b.phase ≠ .settle) (hm : b.mode = .cal) :
    c.frame = b.frame ∧ c.frameValid = b.frameValid ∧ c.csCalc = b.csCalc ∧ (c.acc = b.acc ∨ ReadDecodeBegun b c) := by
  have notDec : b.mode ≠ .dec := by simp [hm]
  obtain ⟨hframe, hvalid⟩ : c.frame = b.frame ∧ c.frameValid = b.frameValid := by
    rcases seqOutcome_frame h with hkept | ⟨_, _, hidle, _⟩ | ⟨_, _, _, _, hdec, _⟩
    · exact hkept
    · exact absurd hidle hi
    · exact absurd hdec notDec
  have hacc : c.csCalc = b.csCalc ∧ (c.acc = b.acc ∨ ReadDecodeBegun b c) := by
    cases h with
    | dispatched c hidle => exact absurd hidle hi
    | sampled hph => exact absurd hph hs
    | frameOk _ hdec => exact absurd hdec notDec
    | frameBad _ hdec => exact absurd hdec notDec
    | timedOut =>
      obtain ⟨hacc, hcs⟩ := failedAt_acc_csCalc (stageCode (waitStage b)) b
      exact ⟨hcs, .inl hacc⟩
    | calHighEnds c _ _ _ hh => exact calHighOutcome_acc hh
    | _ => exact ⟨rfl, .inl rfl⟩
  exact ⟨hframe, hvalid, hacc⟩

/-- Settles O45: a step that is no tick touches only the latch and the flags, and a tick is a calibration's. -/
theorem calibrationLeavesTheFrame : Obligations.CalibrationLeavesTheFrame := by
  intro s t inv h hr hi hm
  have notSettle : s.blk.phase ≠ .settle := fun hs => absurd ((inv.settleDec hs).symm.trans hm) nofun
  rcases step_block_cases h hr with ⟨pv, pc, o, i, hblk⟩ | ⟨lvl, c, hc, hblk⟩
  · rw [hblk]
    exact ⟨rfl, rfl, rfl, .inl rfl⟩
  · simp only [hblk, timeAdvance_frame, timeAdvance_frameValid, timeAdvance_csCalc, timeAdvance_acc, timeAdvance_mode,
      timeAdvance_phase]
    exact seqOutcome_cal_frame hc hi notSettle hm

end Sys2Proof.Machine
end

section
/-! PROOF. The decoded frame: the bits in the accumulator, the checksum validator, and the sign of the temperature. -/
namespace Sys2Proof.Machine

/-! ## The accumulator -/

/-- A sample as arithmetic (spec/43_decoder.md R183). -/
theorem shiftIn_eq_ofNat (x : Frame) (lvl : Bool) : shiftIn x lvl = BitVec.ofNat 40 (2 * x.toNat + lvl.toNat) :=
  BitVec.eq_of_toNat_eq (by rw [shiftIn_toNat, BitVec.toNat_ofNat])

/-- One more bit received is one more binary digit, the lowest. -/
theorem bitsValue_concat (bits : List Bool) (b : Bool) : bitsValue (bits ++ [b]) = Nat.bit b (bitsValue bits) := by
  rw [bitsValue, List.foldl_append, Nat.bit_val]
  rfl

/-- `n` bits make a number below `2^n`. -/
theorem bitsValue_lt (bits : List Bool) : bitsValue bits < 2 ^ bits.length := by
  induction bits using List.reverseRecOn with
  | nil => exact Nat.one_pos
  | append_singleton bits b ih =>
    rw [bitsValue_concat, List.length_append]
    exact Nat.bit_lt_two_pow_succ_iff.2 ih

/-- The first of `n` bits is binary digit `n-1`, the last is digit 0 (spec/30_encoding.md R109). -/
theorem testBit_bitsValue {bits : List Bool} {k : Nat} (h : k < bits.length) :
    (bitsValue bits).testBit (bits.length - 1 - k) = bits[k] := by
  induction bits using List.reverseRecOn with
  | nil => exact absurd h (Nat.not_lt_zero k)
  | append_singleton bits b ih =>
    rw [bitsValue_concat]
    by_cases hk : k < bits.length
    · have hdigit : (bits ++ [b]).length - 1 - k = bits.length - 1 - k + 1 := by
        rw [List.length_append, List.length_singleton]
        omega
      rw [hdigit, Nat.testBit_bit_succ, ih hk, List.getElem_append_left hk]
    · obtain rfl : k = bits.length := by
        rw [List.length_append, List.length_singleton] at h
        omega
      simp

/-- At most 40 samples from an empty accumulator lose no bit. -/
theorem toNat_foldl_shiftIn {bits : List Bool} (h : bits.length ≤ 40) : (bits.foldl shiftIn 0).toNat = bitsValue bits := by
  have hfold : bits.foldl shiftIn 0 = BitVec.ofNat 40 (bitsValue bits) := foldl_shiftIn bits 0
  rw [hfold, BitVec.toNat_ofNat]
  exact Nat.mod_eq_of_lt ((bitsValue_lt bits).trans_le (Nat.pow_le_pow_right Nat.two_pos h))

/-- Settles O32: the accumulator is the number of the bits, whose digits they are, by induction on the samples. -/
theorem accumulatorHoldsReceivedBits : Obligations.AccumulatorHoldsReceivedBits := by
  refine ⟨shiftIn_eq_ofNat, fun bits hlen => ⟨toNat_foldl_shiftIn hlen, bitsValue_lt bits, fun k hk => ?_⟩⟩
  rw [BitVec.getLsbD, toNat_foldl_shiftIn hlen, testBit_bitsValue hk]

/-! ## The checksum validator -/

/-- The validator compares the checksum with the low byte (spec/43_decoder.md R186). -/
theorem checksumOk_iff (x : Frame) : checksumOk x = true ↔ checksum x = x.extractLsb' 0 8 := by
  rw [checksumOk, beq_iff_eq]

/-- The validator as arithmetic. -/
theorem checksumOk_iff_toNat (x : Frame) : checksumOk x = true ↔ (checksum x).toNat = x.toNat % 256 := by
  rw [checksumOk_iff, ← BitVec.toNat_inj, BitVec.extractLsb'_toNat, Nat.shiftRight_zero]

/-- A bit of the checksum byte is in none of the four summed bytes. -/
theorem checksum_flip (x : Frame) {i : Nat} (hi : i < 8) : checksum (x ^^^ (1#40 <<< i)) = checksum x := by
  have hbyte {k : Nat} (hk : 8 ≤ k) : (x ^^^ (1#40 <<< i)).extractLsb' k 8 = x.extractLsb' k 8 := by
    apply BitVec.eq_of_getLsbD_eq
    intro j hj
    have hne : k + j - i ≠ 0 := by omega
    simp [hne]
  simp only [checksum, hbyte (k := 8), hbyte (k := 16), hbyte (k := 24), hbyte (k := 32), le_refl, Nat.reduceLeDiff]

/-- Flipping a bit of the checksum byte changes that byte. -/
theorem extract_low_flip_ne (x : Frame) {i : Nat} (hi : i < 8) :
    (x ^^^ (1#40 <<< i)).extractLsb' 0 8 ≠ x.extractLsb' 0 8 := by
  intro h
  have hbit := congrArg (fun y => y.getLsbD i) h
  simp [hi, show i < 40 by omega] at hbit

/-- Settles O33: a flip in the checksum byte keeps the sum and changes what it is compared with. -/
theorem checksumValidator : Obligations.ChecksumValidator := by
  intro x
  refine ⟨by rw [checksumOk_iff_toNat, checksum_toNat], fun hok i hi => ?_⟩
  rw [checksumOk_iff] at hok
  rw [← Bool.not_eq_true, checksumOk_iff, checksum_flip x hi, hok]
  exact (extract_low_flip_ne x hi).symm

/-! ## The temperature -/

/-- Bit 15 of a temperature field is its upper half (spec/43_decoder.md R189). -/
theorem getLsbD_sign (f : BitVec 16) : f.getLsbD 15 = decide (0x8000 ≤ f.toNat) := by
  simpa [BitVec.msb, BitVec.getMsbD] using BitVec.msb_eq_decide f

/-- The magnitude of a temperature field is its low 15 bits, never negative as a signed number (spec/43_decoder.md R189). -/
theorem toInt_magnitude (f : BitVec 16) : ((f.extractLsb' 0 15).setWidth 16).toInt = (f.toNat % 0x8000 : Nat) := by
  have hnat : ((f.extractLsb' 0 15).setWidth 16).toNat = f.toNat % 0x8000 := by
    rw [BitVec.toNat_setWidth_of_le (by omega), BitVec.extractLsb'_toNat, Nat.shiftRight_zero]
  rw [BitVec.toInt_eq_toNat_of_lt (by omega), hnat]

/-- Settles O34: by the sign of the field; a magnitude below `2^15` negates without overflow. -/
theorem temperatureConversion : Obligations.TemperatureConversion := by
  refine ⟨fun f => ?_, by decide⟩
  have hf := f.isLt
  simp only [tempTenths, getLsbD_sign, decide_eq_true_eq]
  split_ifs with hneg
  · rw [zero_sub, BitVec.toInt_neg, toInt_magnitude, Int.bmod_eq_of_le (by omega) (by omega)]
    omega
  · rw [toInt_magnitude]
    omega

end Sys2Proof.Machine
end

section
/-! PROOF. One tick of a decode: its lead-in, its settle delay, and its high phase with the end of the frame. -/
namespace Sys2Proof.Machine

/-- A failed decode leaves a decode timing error and nothing else (spec/43_decoder.md R190). -/
theorem failedAt_dec {b : Block} (hm : b.mode = .dec) (g : BitVec 8) :
    failedAt g b = { b with err := 0x10 + g, done := true, phase := .idle } := by
  simp only [failedAt, hm]

/-- The end of a decode's lead-in (spec/43_decoder.md R181). -/
theorem waitEnd_decLead (p : Params) {b : Block} (hph : b.phase = .wLead) (hm : b.mode = .dec) (d : Dur) :
    waitEnd p b d = { b with phase := .settle, cnt := 0 } := by
  simp only [waitEnd, hph, leadEnd, hm, decLeadEnd]

/-- Settles O29: the clauses of a wait at the low level, and the two stages of its timeout. -/
theorem decodeLeadIn : Obligations.DecodeLeadIn := by
  intro p lvl b hph hm d B
  have hbound : waitBound p b = B := by simp only [waitBound, hm, hph, B]
  obtain ⟨hedge, htimeout, hcount⟩ := seqStep_wait_clauses p lvl (L := false) (by simp [hph, sampling]) (by simp [hph])
    (by simp [hph, waitLevel]) hbound (stageCode_lead hph) (waitEnd_decLead p hph hm d)
  refine ⟨hedge, fun hl hd hfirst => ?_, fun hl hd hlater => ?_, hcount⟩
  · rw [htimeout hl hd, failedAt_dec hm, if_pos hfirst]
    rfl
  · rw [htimeout hl hd, failedAt_dec hm, if_neg hlater]
    rfl

/-- Settles O30: the two branches of the settle delay. -/
theorem decodeSample : Obligations.DecodeSample := by
  intro p lvl b hph
  have hstep : seqStep p lvl b = settleStep p lvl b b := by simp only [seqStep, hph]
  rw [hstep, settleStep, ← shiftIn_eq_ofNat]
  exact ⟨fun h => if_neg h, fun h => if_pos h⟩

/-- The end of a decode's high phase (spec/43_decoder.md R184). -/
theorem waitEnd_decHigh (p : Params) {b : Block} (hph : b.phase = .wHigh) (hm : b.mode = .dec) (d : Dur) :
    waitEnd p b d = decHighEnd b b := by
  simp only [waitEnd, hph, highEnd, hm]

/-- The end of a frame whose checksum is right (spec/43_decoder.md R185). -/
theorem decodeDone_ok {r : Block} (h : checksumOk r.acc = true) (w : Block) : decodeDone r w = { w with
    lineOe := true, lineOut := true, csCalc := checksum r.acc, frame := r.acc, frameValid := true,
    err := 0x00, done := true, phase := .idle } :=
  if_pos h

/-- The end of a frame whose checksum is wrong: the cached frame stays (spec/43_decoder.md R185). -/
theorem decodeDone_bad {r : Block} (h : ¬checksumOk r.acc = true) (w : Block) : decodeDone r w = { w with
    lineOe := true, lineOut := true, csCalc := checksum r.acc, err := 0x03, done := true, phase := .idle } :=
  if_neg h

/-- Settles O31: the clauses of a wait at the high level, and the verdict of the checksum after the 40th bit. -/
theorem decodeHighPhase : Obligations.DecodeHighPhase := by
  intro p lvl b hph hm d sum
  have hsum : (checksum b.acc).toNat = sum := checksum_toNat b.acc
  have hcalc : BitVec.ofNat 8 sum = checksum b.acc := by rw [← hsum, BitVec.ofNat_toNat, BitVec.setWidth_eq]
  have hverdict : checksumOk b.acc = true ↔ sum = b.acc.toNat % 256 := by rw [checksumOk_iff_toNat, hsum]
  have hbound : waitBound p b = b.profile.bitHighOne.toNat := by simp only [waitBound, hm, hph]
  obtain ⟨hedge, htimeout, hcount⟩ := seqStep_wait_clauses p lvl (L := true) (g := 4) (by simp [hph, sampling])
    (by simp [hph]) (by simp [hph, waitLevel]) hbound (by simp [hph, waitStage, stageCode]) (waitEnd_decHigh p hph hm d)
  rw [hcalc, ← hverdict]
  refine ⟨fun hl hmore => ?next, fun hl h40 hok => ?ok, fun hl h40 hbad => ?bad, fun hl hd => ?timeout, hcount⟩
  case next => rw [hedge hl, decHighEnd, if_neg hmore]
  case ok => rw [hedge hl, decHighEnd, if_pos h40, decodeDone_ok hok]
  case bad => rw [hedge hl, decHighEnd, if_pos h40, decodeDone_bad (mt hverdict.1 hbad)]
  case timeout =>
    rw [htimeout hl hd, failedAt_dec hm]
    rfl

end Sys2Proof.Machine
end

section
/-! PROOF. The commands at their dispatch: each command's entry in each of its cases (spec/44_lifecycle.md R211 to R215). -/
namespace Sys2Proof.Machine

/-- Power-on assumed: BEGIN's sequence records the time and completes POWER_ON (spec/44_lifecycle.md R213). -/
theorem beginEntry_powerOn (p : Params) (r w : Block) : beginEntry p true r w =
    complete .powerOn { w with lstate := .uninitialized, lastStartMs := r.nowMs, tsValid := true } :=
  if_pos rfl

/-- Inside the interval BEGIN's sequence answers BUSY (spec/44_lifecycle.md R213). -/
theorem beginEntry_busy {p : Params} {r : Block} (hi : intervalBusy p r = true) (w : Block) :
    beginEntry p false r w = complete .busy w := by
  rw [beginEntry, if_neg Bool.false_ne_true, if_pos hi]

/-- Outside the interval BEGIN's sequence starts a calibration (spec/44_lifecycle.md R213). -/
theorem beginEntry_calibrates {p : Params} {r : Block} (hi : intervalBusy p r = false) (w : Block) :
    beginEntry p false r w = startSeq .cal w := by
  rw [beginEntry, if_neg Bool.false_ne_true, if_neg (by simp [hi])]

/-- No power-on is assumed in any other lifecycle state. -/
theorem poweredOn_eq_false {b : Block} (h : b.lstate ≠ .poweredOn) : poweredOn b = false :=
  Bool.eq_false_iff.2 (mt (poweredOn_iff b).1 h)

/-- The three ways of BEGIN's sequence at the dispatch of `k` (spec/44_lifecycle.md R211, R213). -/
theorem beginEntry_dispatched (p : Params) (k : BitVec 3) (b : Block) :
    (b.lstate = .poweredOn → beginEntry p (poweredOn b) b (dispatchWrites k b) = { dispatched k b with
      lstate := .uninitialized, lastStartMs := b.nowMs, tsValid := true, err := 0x01, done := true, phase := .idle }) ∧
    (b.lstate ≠ .poweredOn → intervalBusy p b = true → beginEntry p (poweredOn b) b (dispatchWrites k b) =
      { dispatched k b with err := 0x02, done := true, phase := .idle }) ∧
    (b.lstate ≠ .poweredOn → intervalBusy p b = false → beginEntry p (poweredOn b) b (dispatchWrites k b) =
      startedIn .cal emptyScratch (dispatched k b)) := by
  refine ⟨fun h => ?_, fun h hi => ?_, fun h hi => ?_⟩
  · rw [(poweredOn_iff b).2 h, beginEntry_powerOn]
    rfl
  · rw [poweredOn_eq_false h, beginEntry_busy hi]
    rfl
  · rw [poweredOn_eq_false h, beginEntry_calibrates hi]
    rfl

/-- Settles O20: BEGIN is its sequence at the dispatch of code 1. -/
theorem beginAtItsDispatch : Obligations.BeginAtItsDispatch := by
  intro s
  have hexec : exec .beginCmd s = .next { s with
    blk := beginEntry Config.params (poweredOn s.blk) s.blk (dispatchWrites 1 s.blk) } := rfl
  obtain ⟨powerOn, busy, calibrates⟩ := beginEntry_dispatched Config.params 1 s.blk
  rw [hexec]
  exact ⟨fun h => by rw [powerOn h], fun h hi => by rw [busy h hi], fun h hi => by rw [calibrates h hi]⟩

/-- Settles O21: the first RECOVER assumes power-on, and a later one is BEGIN's sequence at the dispatch of code 2. -/
theorem recoverAtItsDispatch : Obligations.RecoverAtItsDispatch := by
  intro s
  have hexec : exec .recover s = .next { s with
    blk := recoverEntry Config.params s.blk (dispatchWrites 2 s.blk) } := rfl
  have hlater (h : s.blk.recovering = true) : recoverEntry Config.params s.blk (dispatchWrites 2 s.blk) =
      beginEntry Config.params (poweredOn s.blk) s.blk (dispatchWrites 2 s.blk) := if_neg (by simp [h])
  obtain ⟨powerOn, busy, calibrates⟩ := beginEntry_dispatched Config.params 2 s.blk
  rw [hexec]
  refine ⟨fun h => ?first, fun h hl => by rw [hlater h, powerOn hl], fun h hl hi => by rw [hlater h, busy hl hi],
    fun h hl hi => by rw [hlater h, calibrates hl hi]⟩
  rw [recoverEntry, if_pos h, beginEntry_powerOn]
  rfl

/-- Settles O22: READ is BEGIN's sequence before the first calibration, and ReadStart after it. -/
theorem readAtItsDispatch : Obligations.ReadAtItsDispatch := by
  intro s
  have hexec : exec .read s = .next { s with blk := readEntry Config.params s.blk (dispatchWrites 3 s.blk) } := rfl
  have hbefore (h : s.blk.calDone = false) : readEntry Config.params s.blk (dispatchWrites 3 s.blk) =
      beginEntry Config.params (poweredOn s.blk) s.blk (dispatchWrites 3 s.blk) := if_pos h
  have hafter (h : s.blk.calDone = true) : readEntry Config.params s.blk (dispatchWrites 3 s.blk) =
      readStart Config.params s.blk (dispatchWrites 3 s.blk) := if_neg (by simp [h])
  obtain ⟨powerOn, busy, calibrates⟩ := beginEntry_dispatched Config.params 3 s.blk
  rw [hexec]
  refine ⟨fun h hl => by rw [hbefore h, powerOn hl], fun h hl hi => by rw [hbefore h, busy hl hi],
    fun h hl hi => by rw [hbefore h, calibrates hl hi], fun h hi hf => ?cached, fun h hi hf => ?busy, fun h hi => ?decode⟩
  case cached =>
    rw [hafter h, readStart_cached hi hf]
    rfl
  case busy =>
    rw [hafter h, readStart_busy hi hf]
    rfl
  case decode =>
    rw [hafter h, readStart_decode hi]
    rfl

/-- Settles O23: the two branches of MEASURE's entry. -/
theorem measureAtItsDispatch : Obligations.MeasureAtItsDispatch := by
  intro s
  have hexec : exec .measure s = .next { s with blk := measureEntry Config.params s.blk (dispatchWrites 4 s.blk) } := rfl
  rw [hexec]
  refine ⟨fun hi => ?busy, fun hi => ?calibrates⟩
  case busy =>
    rw [measureEntry, if_pos hi]
    rfl
  case calibrates =>
    rw [measureEntry, if_neg (by simp [hi])]
    rfl

/-- Settles O24: the two branches of START's entry. -/
theorem startAtItsDispatch : Obligations.StartAtItsDispatch := by
  intro s
  have hexec : exec .start s = .next { s with blk := startEntry Config.params s.blk (dispatchWrites 5 s.blk) } := rfl
  rw [hexec]
  refine ⟨fun hi => ?busy, fun hi => ?starts⟩
  case busy =>
    rw [startEntry, if_pos hi]
    rfl
  case starts =>
    rw [startEntry, if_neg (by simp [hi])]
    rfl

end Sys2Proof.Machine
end

section
/-! PROOF. The admission of a command word: what each word does when it is written, and the tick that dispatches a latched
command (spec/44_lifecycle.md R210, R211, R216, R217). -/
namespace Sys2Proof.Machine

/-! ## The words -/

/-- The words that are no command and not 0 are those from 6 up: a reserved bit is worth at least 8 (spec/30_encoding.md
R101, R103). -/
theorem illegal_word_iff (v : Word) :
    (v.extractLsb' 3 29 ≠ 0 ∨ v.extractLsb' 0 3 = 6 ∨ v.extractLsb' 0 3 = 7) ↔ 6 ≤ v.toNat := by
  have hv := v.isLt
  simp only [ne_eq, ← BitVec.toNat_inj, BitVec.extractLsb'_toNat, Nat.shiftRight_eq_div_pow, BitVec.reduceToNat]
  omega

/-- The OP field of a word is its number modulo 8. -/
theorem extract_op_eq_ofNat (v : Word) : v.extractLsb' 0 3 = BitVec.ofNat 3 v.toNat :=
  BitVec.eq_of_toNat_eq (by rw [BitVec.extractLsb'_toNat, Nat.shiftRight_zero, BitVec.toNat_ofNat])

/-- BUSY is a command pending or a sequence running (spec/10_state.md R52). -/
theorem busy_iff (b : Block) : busy b = true ↔ b.pendValid = true ∨ b.phase ≠ .idle := by
  simp [busy]

/-- The word 0 is ignored (spec/44_lifecycle.md R210). -/
theorem cmdWrite_zero (b : Block) : cmdWrite 0x00000000 b = b :=
  if_pos rfl

/-- An illegal word is marked, busy or not (spec/44_lifecycle.md R210, R217). -/
theorem cmdWrite_illegal {v : Word} (h : 6 ≤ v.toNat) (b : Block) : cmdWrite v b = markIllegal b := by
  have hz : v ≠ 0x00000000 := by
    rintro rfl
    simp at h
  rw [cmdWrite, if_neg hz, if_pos ((illegal_word_iff v).2 h)]

/-- A command is refused or latched, as the block is busy or not (spec/44_lifecycle.md R210, R218). -/
theorem cmdWrite_command {v : Word} (hz : v ≠ 0x00000000) (h : v.toNat < 6) (b : Block) :
    cmdWrite v b = if busy b then markOverrun b else latchCommand (BitVec.ofNat 3 v.toNat) b := by
  rw [cmdWrite, if_neg hz, if_neg (mt (illegal_word_iff v).1 (Nat.not_le.2 h)), extract_op_eq_ofNat]

/-- Settles O19: a word from 6 up decodes by its reserved bits or its OP to an illegal word's instruction. -/
theorem nopAndIllegalWords : Obligations.NopAndIllegalWords := by
  refine ⟨fun s => ⟨rfl, ?zero⟩, fun _ => ⟨rfl, rfl⟩, fun _ _ _ => rfl, fun s w h => ?illegal⟩
  case zero =>
    show Host.Outcome.next (onBlock (cmdWrite 0x00000000) s) = .next s
    rw [onBlock, cmdWrite_zero]
  case illegal =>
    show Host.Outcome.next (onBlock (cmdWrite w) s) = _
    rw [onBlock, cmdWrite_illegal h]
    by_cases hrsv : w.extractLsb' 3 29 = 0
    · rcases (illegal_word_iff w).2 h with hne | hop | hop
      · exact absurd hrsv hne
      · simp only [decodeCmd, hrsv, hop]
        rfl
      · simp only [decodeCmd, hrsv, hop]
        rfl
    · simp only [decodeCmd, if_pos hrsv]
      rfl

/-! ## The dispatch of a latched command -/

/-- A dispatch leaves the code of its command in `op` (spec/44_lifecycle.md R211). -/
theorem dispatchOutcome_op {p : Params} {b c : Block} {k : BitVec 3} (h : DispatchOutcome p b k c) : c.op = k := by
  cases h <;> rfl

/-- A tick that finds the sequencer idle and a command pending dispatches it (spec/44_lifecycle.md R211). -/
theorem step_dispatches {s : State} (ht : tickNext s = true) (hi : s.blk.phase = .idle) (hv : s.blk.pendValid = true) :
    ∃ t, step s = .next t ∧ t.blk.pendValid = false ∧ t.blk.op = s.blk.pendCmd := by
  have hout := dispatch_outcome Config.params s.blk s.blk.pendCmd
  refine ⟨_, step_of_tickNext ht, ?_, ?_⟩ <;>
    simp only [plainTick, finishTick, onBlock, seqStep_dispatch _ _ hi hv, timeAdvance_pendValid, timeAdvance_op]
  · exact dispatchOutcome_pendValid hout
  · exact dispatchOutcome_op hout

/-- Settles O16: the branches of a write to CMD, and the tick after a latched command. -/
theorem writeCommandAdmission : Obligations.WriteCommandAdmission := by
  intro s v legal busyNow
  have hexec : exec (.wrCmd v) s = .next { s with blk := cmdWrite v s.blk } := rfl
  rw [hexec]
  refine ⟨fun hz => ?zero, fun hl => ?illegal, fun hz hl hb => ?refused, fun hz hl hb => ?latched⟩
  case zero => rw [hz, cmdWrite_zero]
  case illegal =>
    rw [cmdWrite_illegal (Nat.not_lt.1 hl)]
    rfl
  case refused =>
    rw [cmdWrite_command hz hl, if_pos ((busy_iff _).2 hb)]
    rfl
  case latched =>
    intro latched
    have hidle : s.blk.phase = .idle := by
      by_contra hne
      exact hb (.inr hne)
    refine ⟨?_, fun ht => ?_⟩
    · rw [cmdWrite_command hz hl, if_neg (mt (busy_iff _).1 hb)]
      rfl
    · obtain ⟨t, hstep, hempty, hop⟩ := step_dispatches ht hidle rfl
      have hcode : (BitVec.ofNat 3 v.toNat).toNat = v.toNat := by
        rw [BitVec.toNat_ofNat]
        exact Nat.mod_eq_of_lt (Nat.lt_trans hl (by decide))
      exact ⟨t, hstep, hempty, by rw [hop]; exact hcode⟩

end Sys2Proof.Machine
end

section
/-! PROOF. The end of a command: a result is written only with `done = 1`, the sequencer idle and a code of R105
(spec/44_lifecycle.md R212). -/
namespace Sys2Proof.Machine

/-- A block whose command has ended with a code of R105 (spec/44_lifecycle.md R212). -/
structure Completed (c : Block) : Prop where
  done : c.done = true
  idle : c.phase = .idle
  code : legalCode c.err = true

/-- What a step that completes nothing keeps: the result, a running sequence, and a cleared `done`. -/
structure ResultKept (b c : Block) : Prop where
  err     : c.err = b.err
  running : b.phase ≠ .idle → c.phase ≠ .idle
  done    : c.done = true → b.done = true

theorem complete_completed (r : ResultCode) (w : Block) : Completed (complete r w) :=
  ⟨rfl, rfl, legalCode_resultCode r⟩

theorem failedAt_completed (g : Stage) (b : Block) : Completed (failedAt (stageCode g) b) := by
  unfold failedAt
  split
  · exact ⟨rfl, rfl, legalCode_resultCode (.terr g)⟩
  · exact ⟨rfl, rfl, legalCode_resultCode (.calErr g)⟩

/-- A dispatch of an idle block completes its command or leaves the result as it was. -/
theorem dispatchOutcome_result {p : Params} {b c : Block} {k : BitVec 3} (hi : b.phase = .idle)
    (h : DispatchOutcome p b k c) : Completed c ∨ ResultKept b c := by
  cases h with
  | powerOn => exact .inl (complete_completed _ _)
  | busy => exact .inl (complete_completed _ _)
  | cached => exact .inl (complete_completed _ _)
  | _ => exact .inr ⟨rfl, fun hne => absurd hi hne, nofun⟩

/-- The end of a calibration's high phase completes its command or goes on. -/
theorem calHighOutcome_result {p : Params} {b c : Block} {sc : Scratch} (h : CalHighOutcome p b sc c) :
    Completed c ∨ ResultKept b c := by
  cases h with
  | readDecode => exact .inr ⟨rfl, fun _ => nofun, id⟩
  | noCommand => exact .inr ⟨rfl, id, id⟩
  | next => exact .inr ⟨rfl, fun _ => nofun, id⟩
  | failed => exact .inl (failedAt_completed .bitHigh _)
  | _ => exact .inl (complete_completed _ _)

/-- A sequencer step completes a command or leaves the result as it was. -/
theorem seqOutcome_result {p : Params} {lvl : Bool} {b c : Block} (h : SeqOutcome p lvl b c) :
    Completed c ∨ ResultKept b c := by
  cases h with
  | rest => exact .inr ⟨rfl, id, id⟩
  | dispatched c hi _ hd => exact dispatchOutcome_result hi hd
  | counted => exact .inr ⟨rfl, id, id⟩
  | startEnds => exact .inl (complete_completed _ _)
  | timedOut => exact .inl (failedAt_completed _ _)
  | frameOk => exact .inl (complete_completed _ _)
  | frameBad => exact .inl (complete_completed _ _)
  | calHighEnds c _ _ _ hh => exact calHighOutcome_result hh
  | _ => exact .inr ⟨rfl, fun _ => nofun, id⟩

/-- Settles O46: a step that is no reset leaves the result to the sequencer, which completes or keeps it. -/
theorem commandsEndThroughComplete : Obligations.CommandsEndThroughComplete := by
  intro s t h hr hchange
  rcases step_block_cases h hr with ⟨pv, pc, o, i, hblk⟩ | ⟨lvl, c, hc, hblk⟩
  · rw [hblk] at hchange
    rcases hchange with herr | ⟨hne, hi⟩ | ⟨h0, h1⟩
    · exact absurd rfl herr
    · exact absurd hi hne
    · exact absurd (h0.symm.trans h1) nofun
  · simp only [hblk, timeAdvance_err, timeAdvance_phase, timeAdvance_done] at hchange ⊢
    rcases seqOutcome_result hc with ⟨hdone, hidle, hcode⟩ | ⟨herr, hrun, hdone⟩
    · exact ⟨hdone, hidle, hcode⟩
    · rcases hchange with hne | ⟨hne, hi⟩ | ⟨h0, h1⟩
      · exact absurd herr hne
      · exact absurd hi (hrun hne)
      · exact absurd (h0.symm.trans (hdone h1)) nofun

end Sys2Proof.Machine
end

section
/-! PROOF. Completion in time: a bound on the ticks left to the end of the running command, which every tick lowers and
which a dispatch finds within the worst case (spec/44_lifecycle.md R220; spec/70_reset_and_hazards.md R316). -/
namespace Sys2Proof.Machine

/-! ## The ticks left -/

/-- The bound of each acknowledgement wait (spec/40_pulse_width.md R138). -/
def ackTicks (p : Params) : Mode → Nat
  | .cal => p.calTimeoutUs
  | .dec => p.ackTimeoutUs

/-- The most ticks of a bit's lead-in (spec/40_pulse_width.md R138). -/
def leadTicks (p : Params) (t : Profile) : Mode → Nat
  | .cal => p.calTimeoutUs
  | .dec => t.bitLeadLow.toNat + p.leadSlackUs

/-- The most ticks of a bit's high phase, from the sample on in a decode (spec/40_pulse_width.md R138). -/
def highTicks (p : Params) (t : Profile) : Mode → Nat
  | .cal => p.calTimeoutUs
  | .dec => t.bitHighOne.toNat

/-- The ticks from a bit's rising edge to its high phase: a decode's settle delay (spec/43_decoder.md R182). -/
def settleTicks (p : Params) : Mode → Nat
  | .cal => 0
  | .dec => p.settleUs

/-- The most ticks of `n` bits. -/
def bitsTicks (p : Params) (t : Profile) (m : Mode) (n : Nat) : Nat :=
  n * (leadTicks p t m + settleTicks p m + highTicks p t m)

/-- The most bits of a sequence (spec/42_calibrator.md R162; spec/43_decoder.md R184). -/
def bitsMax (p : Params) : Mode → Nat
  | .cal => p.calMaxBits
  | .dec => 40

/-- The bits that are not counted when a sequence is in its high phase, and still come: a calibration counts the bit at
the end of that phase, a decode at the sample before it. -/
def bitsAfterHigh (p : Params) (n : Nat) : Mode → Nat
  | .cal => p.calMaxBits - (n + 1)
  | .dec => 40 - n

/-- The most ticks of a sequence after its phase has ended; START's is the low hold alone (spec/41_initiator.md R156). -/
def ticksAfterPhase (p : Params) (b : Block) : Nat :=
  let bits := bitsTicks p b.profile b.mode
  match b.phase with
  | .idle => 0
  | .startLow => if b.op = 5 then 0 else 3 * ackTicks p b.mode + bits (bitsMax p b.mode)
  | .wResp => 2 * ackTicks p b.mode + bits (bitsMax p b.mode)
  | .wAckL => ackTicks p b.mode + bits (bitsMax p b.mode)
  | .wAckH => bits (bitsMax p b.mode)
  | .wLead => settleTicks p b.mode + highTicks p b.profile b.mode + bits (bitsMax p b.mode - (b.bitcnt.toNat + 1))
  | .settle => highTicks p b.profile b.mode + bits (bitsMax p b.mode - (b.bitcnt.toNat + 1))
  | .wHigh => bits (bitsAfterHigh p b.bitcnt.toNat b.mode)

/-- The most ticks of the decode that a READ has before it while it calibrates (spec/42_calibrator.md R163). -/
def decodeToCome (p : Params) (op : BitVec 3) : Mode → Nat
  | .cal => if op = 3 then tDecMax p else 0
  | .dec => 0

/-- The most ticks to the end of the running command (spec/70_reset_and_hazards.md R316). -/
def ticksLeft (p : Params) (b : Block) : Nat :=
  if b.phase = .idle then 0 else phaseLimit p b - b.cnt.toNat + ticksAfterPhase p b + decodeToCome p b.op b.mode

theorem ticksLeft_idle (p : Params) {b : Block} (h : b.phase = .idle) : ticksLeft p b = 0 :=
  if_pos h

theorem ticksLeft_running (p : Params) {b : Block} (h : b.phase ≠ .idle) :
    ticksLeft p b = phaseLimit p b - b.cnt.toNat + ticksAfterPhase p b + decodeToCome p b.op b.mode :=
  if_neg h

/-- A running command has a tick left: its phase ends above the count (spec/40_pulse_width.md R136). -/
theorem ticksLeft_pos {p : Params} {b : Block} (h : BlockInv p b) (hne : b.phase ≠ .idle) : 0 < ticksLeft p b := by
  have := h.count hne
  rw [ticksLeft_running p hne]
  omega

/-- The ticks left do not depend on the time. -/
theorem ticksLeft_timeAdvance (p : Params) (r w : Block) : ticksLeft p (timeAdvance r w) = ticksLeft p w := by
  obtain ⟨_, _, _, htime⟩ := timeAdvance_frame_time r w
  rw [htime]
  rfl

/-- The bits still to come are one bit and the others. -/
theorem bitsTicks_pos (p : Params) (t : Profile) (m : Mode) {n : Nat} (h : 0 < n) :
    bitsTicks p t m n = leadTicks p t m + settleTicks p m + highTicks p t m + bitsTicks p t m (n - 1) := by
  obtain ⟨k, rfl⟩ : ∃ k, n = k + 1 := ⟨n - 1, by omega⟩
  rw [bitsTicks, Nat.succ_mul, Nat.add_comm, Nat.add_sub_cancel, bitsTicks]

/-- The limit of each acknowledgement wait (spec/40_pulse_width.md R138). -/
theorem phaseLimit_ack (p : Params) {b : Block} (h : b.phase = .wResp ∨ b.phase = .wAckL ∨ b.phase = .wAckH) :
    phaseLimit p b = ackTicks p b.mode := by
  rcases h with h | h | h <;> cases hm : b.mode <;> simp [phaseLimit, waitBound, ackTicks, h, hm]

/-- The limit of a lead-in (spec/40_pulse_width.md R138). -/
theorem phaseLimit_lead (p : Params) {b : Block} (h : b.phase = .wLead) :
    phaseLimit p b = leadTicks p b.profile b.mode := by
  cases hm : b.mode <;> simp [phaseLimit, waitBound, leadTicks, h, hm]

/-- The limit of a high phase (spec/40_pulse_width.md R138). -/
theorem phaseLimit_high (p : Params) {b : Block} (h : b.phase = .wHigh) :
    phaseLimit p b = highTicks p b.profile b.mode := by
  cases hm : b.mode <;> simp [phaseLimit, waitBound, highTicks, h, hm]

/-! ## The ticks left in each phase -/

section
variable (p : Params) {b : Block}

theorem ticksLeft_startLow (h : b.phase = .startLow) : ticksLeft p b = p.startLowUs - b.cnt.toNat +
    (if b.op = 5 then 0 else 3 * ackTicks p b.mode + bitsTicks p b.profile b.mode (bitsMax p b.mode)) +
    decodeToCome p b.op b.mode := by
  simp only [ticksLeft_running p (show b.phase ≠ .idle by simp [h]), phaseLimit, ticksAfterPhase, h]

theorem ticksLeft_wResp (h : b.phase = .wResp) : ticksLeft p b = ackTicks p b.mode - b.cnt.toNat +
    (2 * ackTicks p b.mode + bitsTicks p b.profile b.mode (bitsMax p b.mode)) + decodeToCome p b.op b.mode := by
  rw [ticksLeft_running p (by simp [h]), phaseLimit_ack p (.inl h)]
  simp only [ticksAfterPhase, h]

theorem ticksLeft_wAckL (h : b.phase = .wAckL) : ticksLeft p b = ackTicks p b.mode - b.cnt.toNat +
    (ackTicks p b.mode + bitsTicks p b.profile b.mode (bitsMax p b.mode)) + decodeToCome p b.op b.mode := by
  rw [ticksLeft_running p (by simp [h]), phaseLimit_ack p (.inr (.inl h))]
  simp only [ticksAfterPhase, h]

theorem ticksLeft_wAckH (h : b.phase = .wAckH) : ticksLeft p b = ackTicks p b.mode - b.cnt.toNat +
    bitsTicks p b.profile b.mode (bitsMax p b.mode) + decodeToCome p b.op b.mode := by
  rw [ticksLeft_running p (by simp [h]), phaseLimit_ack p (.inr (.inr h))]
  simp only [ticksAfterPhase, h]

theorem ticksLeft_wLead (h : b.phase = .wLead) : ticksLeft p b = leadTicks p b.profile b.mode - b.cnt.toNat +
    (settleTicks p b.mode + highTicks p b.profile b.mode +
      bitsTicks p b.profile b.mode (bitsMax p b.mode - (b.bitcnt.toNat + 1))) + decodeToCome p b.op b.mode := by
  rw [ticksLeft_running p (by simp [h]), phaseLimit_lead p h]
  simp only [ticksAfterPhase, h]

theorem ticksLeft_settle (h : b.phase = .settle) : ticksLeft p b = p.settleUs - b.cnt.toNat +
    (highTicks p b.profile b.mode +
      bitsTicks p b.profile b.mode (bitsMax p b.mode - (b.bitcnt.toNat + 1))) + decodeToCome p b.op b.mode := by
  simp only [ticksLeft_running p (show b.phase ≠ .idle by simp [h]), phaseLimit, ticksAfterPhase, h]

theorem ticksLeft_wHigh (h : b.phase = .wHigh) : ticksLeft p b = highTicks p b.profile b.mode - b.cnt.toNat +
    bitsTicks p b.profile b.mode (bitsAfterHigh p b.bitcnt.toNat b.mode) + decodeToCome p b.op b.mode := by
  rw [ticksLeft_running p (by simp [h]), phaseLimit_high p h]
  simp only [ticksAfterPhase, h]

end

/-! ## Every tick lowers them -/

/-- No phase lasts longer than the counter counts: a decode's lead-in by the bounds of the profile (spec/10_state.md R72). -/
theorem phaseLimit_le {p : Params} (hp : p.Valid) {b : Block} (h : BlockInv p b) (hne : b.phase ≠ .idle) :
    phaseLimit p b ≤ 65535 := by
  have := hp.startLowUs_hi
  have := hp.settleUs_hi
  have := hp.ackTimeoutUs_hi
  have := hp.calTimeoutUs_hi
  have := hp.leadSlackUs_hi
  unfold phaseLimit waitBound
  split
  · omega
  · omega
  · split
    · omega
    · rename_i hl _ _ hm
      have dec := (h.run hne).dec hm
      have := (h.profileOk (dec.calDone (dec.isRead hl))).lead_le
      have := b.profile.bitHighOne.isLt
      split <;> omega

/-- A tick of counting is a tick less. -/
theorem ticksLeft_counted {p : Params} (hp : p.Valid) {b : Block} (h : BlockInv p b) (hne : b.phase ≠ .idle) :
    ticksLeft p { b with cnt := b.cnt + 1 } ≤ ticksLeft p b - 1 := by
  have hcount := h.count hne
  have hsucc := dur_succ_toNat hcount (phaseLimit_le hp h hne)
  have hrun := ticksLeft_running p hne
  have hrun' : ticksLeft p { b with cnt := b.cnt + 1 } =
      phaseLimit p b - (b.cnt + 1).toNat + ticksAfterPhase p b + decodeToCome p b.op b.mode :=
    ticksLeft_running p (b := { b with cnt := b.cnt + 1 }) hne
  omega

/-- A phase that ends is a tick less, if what comes next takes no more ticks than were reckoned after it. -/
theorem ticksLeft_phaseEnds {p : Params} {b c : Block} (h : BlockInv p b) (hne : b.phase ≠ .idle)
    (hnext : ticksLeft p c ≤ ticksAfterPhase p b + decodeToCome p b.op b.mode) : ticksLeft p c ≤ ticksLeft p b - 1 := by
  have := h.count hne
  rw [ticksLeft_running p hne]
  omega

/-- A decode with a profile within its bounds takes no longer than one with any (spec/70_reset_and_hazards.md R316). -/
theorem tDec_le_tDecMax {p : Params} {t : Profile} (h : ProfileOk p t) : tDec p t ≤ tDecMax p := by
  have := h.lead_le
  have := h.one_le
  unfold tDec tDecMax
  omega

/-- A calibration at its start signal has its worst case left, and READ's the decode's after it. -/
theorem ticksLeft_startSeq_cal (p : Params) {w : Block} (ho : w.op ≠ 5) :
    ticksLeft p (startSeq .cal w) = tCal p + decodeToCome p w.op .cal := by
  rw [ticksLeft_startLow p (startSeq_phase .cal w), startSeq_op, if_neg ho]
  simp [bitsTicks, bitsMax, ackTicks, leadTicks, settleTicks, highTicks, tCal]
  ring

/-- A decode at its start signal has its worst case left. -/
theorem ticksLeft_startSeq_dec (p : Params) {w : Block} (ho : w.op ≠ 5) :
    ticksLeft p (startSeq .dec w) = tDec p w.profile := by
  rw [ticksLeft_startLow p (startSeq_phase .dec w), startSeq_op, if_neg ho]
  simp [bitsTicks, bitsMax, ackTicks, leadTicks, settleTicks, highTicks, decodeToCome, tDec]
  ring

/-- START has its low hold left. -/
theorem ticksLeft_startSeq_start (p : Params) {w : Block} (ho : w.op = 5) :
    ticksLeft p (startSeq .dec w) = p.startLowUs := by
  rw [ticksLeft_startLow p (startSeq_phase .dec w), startSeq_op, if_pos ho]
  simp [decodeToCome]

/-- The end of a calibration's high phase: the next bit is one fewer, and READ's decode is within its worst case. -/
theorem ticksLeft_calHighEnds {p : Params} (hp : p.Valid) {b c : Block} (h : BlockInv p b) (hph : b.phase = .wHigh)
    (hm : b.mode = .cal) (hc : CalHighOutcome p b (scratchAfterHigh p (b.cnt + 1) b.scratch) c) :
    ticksLeft p c ≤ ticksAfterPhase p b + decodeToCome p b.op b.mode := by
  have run := h.run (by simp [hph])
  have cal := run.cal hm
  cases hc with
  | readDecode h0 h1 ho =>
    have hdecode := ticksLeft_startSeq_dec p (w := { profileWritten (scratchAfterHigh p (b.cnt + 1) b.scratch) b with
      lstate := .ready, recovering := false, acc := 0 }) (show b.op ≠ 5 by simp [ho])
    have hcome : decodeToCome p b.op b.mode = tDecMax p := by simp [decodeToCome, hm, ho]
    rw [hcome]
    exact (hdecode.trans_le (tDec_le_tDecMax (profileWritten_ok hp run hph hm h0 h1))).trans (Nat.le_add_left _ _)
  | noCommand _ _ h1 h2 h3 h4 =>
    have := cal.op
    bv_omega
  | failed => rw [ticksLeft_idle p (failedAt_phase _ _)]; exact Nat.zero_le _
  | next _ hmax =>
    have hbits := cal.bits
    have hsucc := bitcnt_succ_toNat hbits hp.calMaxBits_hi
    have hbit := bitsTicks_pos p b.profile .cal (n := p.calMaxBits - (b.bitcnt.toNat + 1)) (by omega)
    rw [ticksLeft_wLead p rfl]
    simp only [ticksAfterPhase, hph, hm, pulseCounted, hsucc, bitsAfterHigh, bitsMax, hbit, Nat.sub_sub]
    omega
  | _ => exact Nat.zero_le _

/-- A tick of a running command leaves a tick less, in each way a phase can go on or end. -/
theorem ticksLeft_seqOutcome {p : Params} (hp : p.Valid) {lvl : Bool} {b c : Block} (h : BlockInv p b)
    (hv : b.pendValid = false) (hc : SeqOutcome p lvl b c) : ticksLeft p c ≤ ticksLeft p b - 1 := by
  cases hc with
  | rest hi => simp [ticksLeft_idle p hi]
  | dispatched c _ hpend => simp [hv] at hpend
  | counted hne => exact ticksLeft_counted hp h hne
  | timedOut => rw [ticksLeft_idle p (failedAt_phase _ _)]; exact Nat.zero_le _
  | released hph _ ho =>
    refine ticksLeft_phaseEnds h (by simp [hph]) ?_
    rw [ticksLeft_wResp p rfl]
    simp only [ticksAfterPhase, hph, if_neg ho]
    omega
  | respEnds hph =>
    refine ticksLeft_phaseEnds h (by simp [hph]) ?_
    rw [ticksLeft_wAckL p rfl]
    simp only [ticksAfterPhase, hph]
    omega
  | ackLowEnds _ hph =>
    refine ticksLeft_phaseEnds h (by simp [hph]) ?_
    rw [ticksLeft_wAckH p rfl]
    simp only [ticksAfterPhase, hph]
    omega
  | ackHighEnds _ hph =>
    have hmax : 0 < bitsMax p b.mode := by
      have := hp.calMaxBits_lo
      cases b.mode <;> simp only [bitsMax] <;> omega
    have hfirst : b.bitcnt.toNat + 1 = 1 := by rw [h.noBits (by simp [hph, beforeBits])]; rfl
    refine ticksLeft_phaseEnds h (by simp [hph]) ?_
    rw [ticksLeft_wLead p rfl]
    simp only [ticksAfterPhase, hph, hfirst, bitsTicks_pos p b.profile b.mode hmax]
    omega
  | decLeadEnds hph hm =>
    refine ticksLeft_phaseEnds h (by simp [hph]) ?_
    rw [ticksLeft_settle p rfl]
    simp only [ticksAfterPhase, hph, hm, settleTicks]
    omega
  | calLeadEnds _ hph hm =>
    refine ticksLeft_phaseEnds h (by simp [hph]) ?_
    rw [ticksLeft_wHigh p rfl]
    simp only [ticksAfterPhase, hph, hm, bitsMax, bitsAfterHigh]
    omega
  | sampled hph =>
    have hm := h.settleDec hph
    have hsucc := bitcnt_succ_toNat (Nat.lt_succ_of_le ((h.decBits hm).1 (.inr hph))) (by omega)
    refine ticksLeft_phaseEnds h (by simp [hph]) ?_
    rw [ticksLeft_wHigh p rfl]
    simp only [ticksAfterPhase, hph, hm, hsucc, bitsMax, bitsAfterHigh]
    omega
  | decHighEnds hph hm _ hn =>
    have hlt : b.bitcnt.toNat < 40 := by
      have := (h.decBits hm).2 hph
      bv_omega
    have hbit := bitsTicks_pos p b.profile .dec (n := 40 - b.bitcnt.toNat) (by omega)
    refine ticksLeft_phaseEnds h (by simp [hph]) ?_
    rw [ticksLeft_wLead p rfl]
    simp only [ticksAfterPhase, hph, hm, bitsMax, bitsAfterHigh, hbit, Nat.sub_sub]
    omega
  | calHighEnds c hph hm _ hh =>
    exact ticksLeft_phaseEnds h (by simp [hph]) (ticksLeft_calHighEnds hp h hph hm hh)
  | _ => exact Nat.zero_le _

/-! ## From the dispatch to the end -/

/-- The worst case of a command that calibrates, READ's decode after it included (spec/70_reset_and_hazards.md R316). -/
theorem commandBound_calibrates (p : Params) {b : Block}
    (hk : b.pendCmd = 1 ∨ b.pendCmd = 2 ∨ b.pendCmd = 3 ∨ b.pendCmd = 4) (hcal : ¬(b.pendCmd = 3 ∧ b.calDone = true)) :
    commandBound p b = tCal p + decodeToCome p b.pendCmd .cal := by
  rcases hk with hk | hk | hk | hk
  case inr.inr.inl =>
    have h0 : b.calDone = false := by simpa [hk] using hcal
    simp [commandBound, decodeToCome, hk, h0]
  all_goals simp [commandBound, decodeToCome, hk]

/-- A dispatched command has at most its worst case left: READ's is its decode's when a calibration is done. -/
theorem ticksLeft_dispatch_le (p : Params) {b : Block} (hi : b.phase = .idle) :
    ticksLeft p (dispatch p b.pendCmd b) ≤ commandBound p b := by
  by_cases hread : b.pendCmd = 3 ∧ b.calDone = true
  · obtain ⟨hk, hcal⟩ := hread
    have hentry : dispatch p b.pendCmd b = readStart p b (dispatchWrites 3 b) := by
      rw [hk]
      exact if_neg (by simp [hcal])
    have hbound : commandBound p b = tDec p b.profile := by simp [commandBound, hk, hcal]
    rw [hentry, hbound]
    rcases readStart_cases p b (dispatchWrites 3 b) with ⟨_, _, heq⟩ | ⟨_, _, heq⟩ | ⟨_, heq⟩ <;> rw [heq]
    · exact Nat.zero_le _
    · exact Nat.zero_le _
    · exact (ticksLeft_startSeq_dec p (w := { dispatchWrites 3 b with acc := 0 }) (by simp)).le
  · have hbound := commandBound_calibrates p (b := b)
    have hstart : b.pendCmd = 5 → commandBound p b = p.startLowUs := fun hk => by simp [commandBound, hk]
    have hout := dispatch_outcome p b b.pendCmd
    generalize dispatch p b.pendCmd b = c at hout
    generalize b.pendCmd = k at hout hread hbound hstart
    cases hout with
    | calibrate k _ hk =>
      rw [hbound hk hread]
      exact (ticksLeft_startSeq_cal p (by rcases hk with rfl | rfl | rfl | rfl <;> simp)).le
    | decode _ hcal => exact absurd ⟨rfl, hcal⟩ hread
    | start => exact (ticksLeft_startSeq_start p rfl).trans_le (hstart rfl).ge
    | noCommand => exact (ticksLeft_idle p (b := dispatchWrites k b) hi).trans_le (Nat.zero_le _)
    | _ => exact Nat.zero_le _

/-- A dispatch that leaves the sequencer idle has completed its command. -/
theorem dispatchOutcome_done {p : Params} {b c : Block} {k : BitVec 3} (hk : 1 ≤ k.toNat ∧ k.toNat ≤ 5)
    (h : DispatchOutcome p b k c) (hi : c.phase = .idle) : c.done = true := by
  cases h with
  | powerOn => rfl
  | busy => rfl
  | cached => rfl
  | noCommand k hno => rcases hno with rfl | rfl | rfl <;> simp at hk
  | _ => exact absurd hi nofun

/-- A block whose last command has been dispatched: it runs, or it is done. -/
structure CommandTaken (p : Params) (b : Block) : Prop where
  inv   : BlockInv p b
  empty : b.pendValid = false
  done  : b.phase = .idle → b.done = true

/-- The dispatch tick takes the pending command, and leaves at most its worst case. -/
theorem CommandTaken.of_pending {p : Params} (hp : p.Valid) (lvl : Bool) {b : Block} (h : BlockInv p b)
    (hv : b.pendValid = true) : CommandTaken p (tickBlock p lvl b) ∧ ticksLeft p (tickBlock p lvl b) ≤ commandBound p b := by
  obtain ⟨hi, hk⟩ := h.latch hv
  have hout := dispatch_outcome p b b.pendCmd
  have htick : tickBlock p lvl b = timeAdvance b (dispatch p b.pendCmd b) := by rw [tickBlock, seqStep_dispatch p lvl hi hv]
  refine ⟨⟨tickBlock_keeps_inv hp lvl h, ?_, ?_⟩, ?_⟩ <;> rw [htick]
  · rw [timeAdvance_pendValid]
    exact dispatchOutcome_pendValid hout
  · rw [timeAdvance_phase, timeAdvance_done]
    exact dispatchOutcome_done hk hout
  · rw [ticksLeft_timeAdvance]
    exact ticksLeft_dispatch_le p hi

/-- A tick of a taken command leaves it taken, with a tick less. -/
theorem CommandTaken.tick {p : Params} (hp : p.Valid) (lvl : Bool) {b : Block} (h : CommandTaken p b) :
    CommandTaken p (tickBlock p lvl b) ∧ ticksLeft p (tickBlock p lvl b) ≤ ticksLeft p b - 1 := by
  have hc := seqStep_outcome p lvl b
  refine ⟨⟨tickBlock_keeps_inv hp lvl h.inv, ?_, ?_⟩, ?_⟩ <;> rw [tickBlock]
  · rw [timeAdvance_pendValid]
    exact seqOutcome_pendValid h.inv hc
  · rw [timeAdvance_phase, timeAdvance_done]
    intro hi
    by_cases hb : b.phase = .idle
    · rw [seqStep_rest p lvl hb h.empty]
      exact h.done hb
    · rcases seqOutcome_result hc with completed | kept
      · exact completed.done
      · exact absurd hi (kept.running hb)
  · rw [ticksLeft_timeAdvance]
    exact ticksLeft_seqOutcome hp h.inv h.empty hc

/-- As many ticks as are left complete a taken command, by induction over them. -/
theorem CommandTaken.completes {p : Params} (hp : p.Valid) {levels : List Bool} {b : Block} (h : CommandTaken p b)
    (hlen : ticksLeft p b ≤ levels.length) :
    CommandTaken p (tickRun p levels b) ∧ (tickRun p levels b).phase = .idle := by
  induction levels generalizing b with
  | nil =>
    refine ⟨h, by_contra fun hne => ?_⟩
    exact absurd (ticksLeft_pos h.inv hne) (Nat.not_lt.2 hlen)
  | cons lvl rest ih =>
    obtain ⟨htaken, hless⟩ := h.tick hp lvl
    rw [List.length_cons] at hlen
    exact ih htaken (by omega)

/-- Settles O52: the dispatch tick, and the ticks it leaves. -/
theorem everyCommandCompletesInTime : Obligations.EveryCommandCompletesInTime := by
  intro p b levels hp h hv hlen
  cases levels with
  | nil => simp at hlen
  | cons lvl rest =>
    rw [List.length_cons] at hlen
    obtain ⟨htaken, hbound⟩ := CommandTaken.of_pending hp lvl h hv
    obtain ⟨hend, hidle⟩ := htaken.completes hp (levels := rest) (by omega)
    exact ⟨hidle, hend.empty, hend.done hidle⟩

end Sys2Proof.Machine
end

section
/-! PROOF. The host's accesses: what every register reads as, field by field and as arithmetic on the state, and what the
writes of STATUS and of the read-only registers do (spec/45_host_interface.md R240 to R256). -/
namespace Sys2Proof.Machine

/-! ## Words as arithmetic -/

/-- Two joined words as one number. -/
theorem toNat_append_eq {n m : Nat} (x : BitVec n) (y : BitVec m) : (x ++ y).toNat = x.toNat * 2 ^ m + y.toNat := by
  rw [BitVec.toNat_append, ← Nat.shiftLeft_add_eq_or_of_lt y.isLt, Nat.shiftLeft_eq]

/-- Two joined words at any width. -/
theorem setWidth_append_eq_ofNat {n m : Nat} (k : Nat) (x : BitVec n) (y : BitVec m) :
    (x ++ y).setWidth k = BitVec.ofNat k (x.toNat * 2 ^ m + y.toNat) := by
  rw [← BitVec.ofNat_toNat, toNat_append_eq]

/-- Two joined half words. -/
theorem append_eq_ofNat (x y : Dur) : x ++ y = BitVec.ofNat 32 (x.toNat * 65536 + y.toNat) :=
  (BitVec.setWidth_eq (x ++ y)).symm.trans (setWidth_append_eq_ofNat 32 x y)

/-! ## The derived signals -/

/-- `BUSY` (spec/10_state.md R52). -/
theorem busy_eq (b : Block) : busy b = (b.pendValid || decide (b.phase ≠ .idle)) := by
  unfold busy
  cases b.phase <;> rfl

/-- `DSTATE` (spec/10_state.md R53): the mode while a sequence runs, else the stored lifecycle state. -/
theorem dstate_eq (b : Block) :
    dstate b = if b.phase ≠ .idle then (if b.mode = .cal then 2 else 4) else lstateCode b.lstate := by
  unfold dstate
  cases b.mode <;> rfl

/-- The mode bit (spec/10_state.md R32). -/
theorem modeBit_eq (m : Mode) : modeBit m = decide (m = .cal) := by
  cases m <;> rfl

/-! ## STATUS -/

/-- The flags of STATUS, each at its bit (R241). -/
theorem regStatus_flags (p : Params) (b : Block) :
    (regStatus p b).getLsbD 0 = busy b ∧ (regStatus p b).getLsbD 1 = b.done ∧
    (regStatus p b).getLsbD 5 = b.recovering ∧ (regStatus p b).getLsbD 6 = b.calDone ∧
    (regStatus p b).getLsbD 7 = b.frameValid ∧ (regStatus p b).getLsbD 8 = intervalBusy p b ∧
    (regStatus p b).getLsbD 9 = b.tsValid ∧ (regStatus p b).getLsbD 10 = b.lineOe ∧
    (regStatus p b).getLsbD 11 = b.lineOut ∧ (regStatus p b).getLsbD 12 = b.ovr ∧
    (regStatus p b).getLsbD 13 = b.ill ∧ (regStatus p b).getLsbD 14 = modeBit b.mode ∧
    (regStatus p b).getLsbD 15 = b.cached := by
  simp only [regStatus, bit, BitVec.getLsbD_append]
  simp

/-- The fields of STATUS of more than one bit, each at its place (R241). -/
theorem regStatus_fields (p : Params) (b : Block) :
    (regStatus p b).extractLsb' 2 3 = dstate b ∧ (regStatus p b).extractLsb' 16 3 = b.op ∧
    (regStatus p b).extractLsb' 19 3 = phaseCode b.phase ∧ (regStatus p b).extractLsb' 22 6 = b.bitcnt ∧
    (regStatus p b).extractLsb' 28 4 = 0 := by
  unfold regStatus
  simp only [BitVec.extractLsb'_append_eq_of_le, Nat.reduceLeDiff, Nat.reduceSub]
  exact ⟨BitVec.extractLsb'_append_eq_right, BitVec.extractLsb'_append_eq_right, BitVec.extractLsb'_append_eq_right,
    BitVec.extractLsb'_append_eq_right, BitVec.extractLsb'_eq_self⟩

/-- Settles O11: the word is `regStatus`, whose flags and fields stand where R241 says, with the derived signals as R52,
R53 and R150 compute them. -/
theorem readStatusFields : Obligations.ReadStatusFields := by
  refine ⟨fun _ => rfl, fun s => ⟨regStatus Config.params s.blk, exec_decodeRead 1 s, ?_⟩⟩
  obtain ⟨hbusy, hdone, hrec, hcal, hframe, hint, hts, hoe, hout, hovr, hill, hmode, hcached⟩ :=
    regStatus_flags Config.params s.blk
  obtain ⟨hdstate, hop, hphase, hbitcnt, hzero⟩ := regStatus_fields Config.params s.blk
  exact ⟨hbusy.trans (busy_eq s.blk), hdone, hdstate.trans (dstate_eq s.blk), hrec, hcal, hframe, hint, hts, hoe, hout,
    hovr, hill, hmode.trans (modeBit_eq s.blk.mode), hcached, hop, hphase, hbitcnt, hzero⟩

/-! ## The other registers -/

/-- A read transaction, where the register it names has a known value. -/
theorem exec_decodeRead_of_regRead {a : BitVec 4} {v : Word} {s : State} (h : regRead Config.params a s.blk = v) :
    exec (decodeRead a) s = .next { s with rdLog := { addr := a, data := v } :: s.rdLog } := by
  rw [exec_decodeRead, h]
  rfl

/-- ERR as arithmetic (R242). -/
theorem regErr_eq (b : Block) : regErr b = BitVec.ofNat 32 b.err.toNat :=
  (BitVec.ofNat_toNat 32 b.err).symm

/-- DATA as arithmetic (R243): the two fields stand side by side in the frame. -/
theorem regData_eq (b : Block) : regData b = BitVec.ofNat 32 (b.frame.toNat / 2 ^ 8) := by
  have hjoin : regData b = b.frame.extractLsb' 8 32 := BitVec.extractLsb'_append_extractLsb'_eq_extractLsb' rfl
  rw [hjoin, BitVec.extractLsb', Nat.shiftRight_eq_div_pow]

/-- CSUM as arithmetic (R244). -/
theorem regCsum_eq (b : Block) : regCsum b = BitVec.ofNat 32 (b.csCalc.toNat * 256 + b.frame.toNat % 256) := by
  have hfield : (csField b.frame).toNat = b.frame.toNat % 256 := by
    rw [csField, BitVec.extractLsb'_toNat, Nat.shiftRight_zero]
  simp only [regCsum, setWidth_append_eq_ofNat, hfield, Nat.reducePow]

/-- RAW_LO as arithmetic (R245). -/
theorem regRawLo_eq (b : Block) : regRawLo b = BitVec.ofNat 32 b.acc.toNat := by
  rw [regRawLo, BitVec.extractLsb', Nat.shiftRight_zero]

/-- RAW_HI as a number (R246): eight bits of the accumulator remain above the low 32. -/
theorem regRawHi_toNat (b : Block) : (regRawHi b).toNat = b.acc.toNat / 2 ^ 32 := by
  have hacc := b.acc.isLt
  rw [regRawHi, BitVec.toNat_setWidth_of_le (by decide), BitVec.extractLsb'_toNat, Nat.shiftRight_eq_div_pow]
  omega

/-- RAW_HI as arithmetic (R246). -/
theorem regRawHi_eq (b : Block) : regRawHi b = BitVec.ofNat 32 (b.acc.toNat / 2 ^ 32) := by
  rw [← regRawHi_toNat, BitVec.ofNat_toNat, BitVec.setWidth_eq]

/-- A temperature as a signed number by the bits of its field (spec/43_decoder.md R189). -/
theorem tempTenths_toInt (f : BitVec 16) : (tempTenths f).toInt =
    if f.getLsbD 15 then -((f.extractLsb' 0 15).toNat : Int) else (f.extractLsb' 0 15).toNat := by
  have hmag : (f.extractLsb' 0 15).toNat = f.toNat % 2 ^ 15 := by rw [BitVec.extractLsb'_toNat, Nat.shiftRight_zero]
  have hf := f.isLt
  rw [temperatureConversion.1 f, getLsbD_sign, hmag]
  simp only [decide_eq_true_eq]
  split_ifs <;> omega

/-- VALUE holds the humidity field, and above it the signed temperature (R252). -/
theorem regValue_fields (b : Block) :
    (regValue b).extractLsb' 0 16 = b.frame.extractLsb' 24 16 ∧ ((regValue b).extractLsb' 16 16).toInt =
      if b.frame.getLsbD 23 then -((b.frame.extractLsb' 8 15).toNat : Int) else (b.frame.extractLsb' 8 15).toNat := by
  refine ⟨BitVec.extractLsb'_append_eq_right, ?_⟩
  have hfield : (regValue b).extractLsb' 16 16 = tempTenths (tempField b.frame) := BitVec.extractLsb'_append_eq_left
  have hsign : (tempField b.frame).getLsbD 15 = b.frame.getLsbD 23 := by simp [tempField]
  have hmag : (tempField b.frame).extractLsb' 0 15 = b.frame.extractLsb' 8 15 := by
    apply BitVec.eq_of_getLsbD_eq
    intro i hi
    have hi16 : i < 16 := by omega
    simp only [tempField, BitVec.getLsbD_extractLsb', Nat.zero_add, hi16, decide_true, Bool.true_and]
  rw [hfield, tempTenths_toInt, hsign, hmag]

/-- Settles O12: each read returns its register, whose contents the lemmas above give. -/
theorem readResultRegisters : Obligations.ReadResultRegisters :=
  ⟨fun _ => ⟨rfl, rfl, rfl, rfl, rfl, rfl⟩, fun s =>
    ⟨exec_decodeRead_of_regRead (a := 2) (regErr_eq s.blk), exec_decodeRead_of_regRead (a := 3) (regData_eq s.blk),
      exec_decodeRead_of_regRead (a := 4) (regCsum_eq s.blk), exec_decodeRead_of_regRead (a := 5) (regRawLo_eq s.blk),
      exec_decodeRead_of_regRead (a := 6) (regRawHi_eq s.blk), regValue s.blk, exec_decodeRead 12 s,
      regValue_fields s.blk⟩⟩

/-- Settles O13: as for the result registers; the time registers are the state elements themselves. -/
theorem readProfileAndTimeRegisters : Obligations.ReadProfileAndTimeRegisters :=
  ⟨fun _ => ⟨rfl, rfl, rfl, rfl, rfl⟩, fun s =>
    ⟨exec_decodeRead_of_regRead (a := 7) (append_eq_ofNat s.blk.profile.ack80High s.blk.profile.ack80Low),
      exec_decodeRead_of_regRead (a := 8) (BitVec.ofNat_toNat 32 s.blk.profile.bitLeadLow).symm,
      exec_decodeRead_of_regRead (a := 9) (append_eq_ofNat s.blk.profile.bitHighOne s.blk.profile.bitHighZero),
      exec_decodeRead 10 s, exec_decodeRead 11 s⟩⟩

/-- Settles O14: the four reads at which `regRead` is 0. -/
theorem readZeroRegisters : Obligations.ReadZeroRegisters :=
  ⟨fun _ => ⟨rfl, rfl, rfl, rfl⟩, fun s =>
    ⟨exec_decodeRead 0 s, exec_decodeRead 13 s, exec_decodeRead 14 s, exec_decodeRead 15 s⟩⟩

/-! ## The writes -/

/-- A flag that a written 1 clears (R255). -/
theorem flag_and_not_eq_ite (flag w : Bool) : (flag && !w) = if w then false else flag := by
  cases w <;> simp

/-- Settles O17: `statusWrite`, whose two flags are cleared each by its own bit. -/
theorem writeStatusClearsFlags : Obligations.WriteStatusClearsFlags := by
  refine fun s v => ⟨rfl, ?_⟩
  rw [← flag_and_not_eq_ite, ← flag_and_not_eq_ite]
  exact exec_decodeWrite 1 v s

/-- A write to an address above STATUS leaves the whole state as it was (R256). -/
theorem exec_decodeWrite_ignored {a : BitVec 4} (h : 2 ≤ a.toNat) (v : Word) (s : State) :
    exec (decodeWrite a v) s = .next s := by
  have h0 : a ≠ 0 := by rintro rfl; exact absurd h (by decide)
  have h1 : a ≠ 1 := by rintro rfl; exact absurd h (by decide)
  have hblk : accessBlock { we := true, addr := a, wdata := v } s.blk = s.blk := by
    rw [accessBlock, if_neg (fun hw => h0 hw.2), if_neg (fun hw => h1 hw.2)]
  rw [exec_decodeWrite, onBlock, hblk]

/-- Settles O18: the ignored write, at each address from 0x2 to 0xF. -/
theorem ignoredWritesChangeNothing : Obligations.IgnoredWritesChangeNothing := by
  intro s v
  have hignored (a : BitVec 4) (h : 2 ≤ a.toNat) : exec (decodeWrite a v) s = .next s := exec_decodeWrite_ignored h v s
  exact ⟨hignored 2 (by decide), hignored 3 (by decide), hignored 4 (by decide), hignored 5 (by decide),
    hignored 6 (by decide), hignored 7 (by decide), hignored 8 (by decide), hignored 9 (by decide),
    hignored 10 (by decide), hignored 11 (by decide), hignored 12 (by decide), hignored 13 (by decide),
    hignored 14 (by decide), hignored 15 (by decide), hignored⟩

end Sys2Proof.Machine
end

section
/-! PROOF. GET_RAW: two reads of the host, with any number of ticks between them, and the number it makes of what they
returned (spec/45_host_interface.md R261; spec/70_reset_and_hazards.md R306). -/
namespace Sys2Proof.Machine

/-- Where the host reads a register next, the step returns it, and takes the read off what the host does. -/
theorem step_of_hostRd {s : State} {a : BitVec 4} {rest : List HostEvent} (h : s.script = hostRd a :: rest) :
    step s = .next (busReturn a (regRead Config.params a s.blk) { s with script := rest }) := by
  simp only [step, nextTurn, h, hostRd]
  exact exec_decodeRead a { s with script := rest }

/-- `GET_RAW` at any pace: its two reads, with the host's wait between them. -/
theorem hostGetRaw_eq (gap : Nat) : hostGetRaw gap = hostRd 5 :: (hostWait gap ++ [hostRd 6]) := rfl

/-- A wait of one tick more begins with a tick, and the shorter wait is left. -/
theorem scriptAfterTick_hostWait (gap : Nat) (rest : List HostEvent) :
    scriptAfterTick (hostWait (gap + 1) ++ rest) = hostWait gap ++ rest := by
  cases gap <;> rfl

/-- Steps through a wait of the host: ticks of the block at some levels of the line, at the end of which the wait is taken
off and nothing more has been read. -/
theorem run_hostWait (gap : Nat) {s : State} {rest : List HostEvent} (h : s.script = hostWait gap ++ rest) :
    ∃ (u : State) (levels : List Bool), Host.Core.run Sys2Proof.core gap s = .next u ∧ levels.length = gap ∧
      u.blk = tickRun Config.params levels s.blk ∧ u.script = rest ∧ u.rdLog = s.rdLog := by
  induction gap generalizing s with
  | zero => exact ⟨s, [], rfl, rfl, rfl, h, rfl⟩
  | succ gap ih =>
    have hnext : tickNext s = true := by rw [tickNext, h]; rfl
    obtain ⟨u, levels, hrun, hlen, hblk, hscript, hlog⟩ := ih
      (s := plainTick { s with script := scriptAfterTick s.script })
      (by rw [h]; exact scriptAfterTick_hostWait gap rest)
    exact ⟨u, sampleLine s :: levels, by rw [run_succ_of_step gap (step_of_tickNext hnext), hrun],
      by rw [List.length_cons, hlen], hblk, hscript, hlog⟩

/-- The raw frame joins RAW_HI of one block and RAW_LO of another. -/
theorem rawFrameOf_registers (b c : Block) : rawFrameOf (regRawHi c) (regRawLo b) =
    BitVec.ofNat 64 (c.acc.toNat / 2 ^ 32 * 2 ^ 32 + b.acc.toNat % 2 ^ 32) := by
  have hacc := c.acc.isLt
  have hhi : ((regRawHi c).extractLsb' 0 8).toNat = c.acc.toNat / 2 ^ 32 := by
    rw [BitVec.extractLsb'_toNat, Nat.shiftRight_zero, regRawHi_toNat]
    omega
  rw [rawFrameOf, setWidth_append_eq_ofNat, hhi, regRawLo_eq, BitVec.toNat_ofNat]

/-- Settles O56: a read, the ticks of `run_hostWait`, and a read; with no tick, or at rest, both reads see one accumulator. -/
theorem rawFrameReadByTheHost : Obligations.RawFrameReadByTheHost := by
  intro s gap rest hs
  rw [hostGetRaw_eq, List.cons_append, List.append_assoc] at hs
  obtain ⟨u, levels, hrun, hlen, hblk, hscript, hlog⟩ := run_hostWait gap
    (s := busReturn 5 (regRawLo s.blk) { s with script := hostWait gap ++ ([hostRd 6] ++ rest) }) rfl
  have hresult : getRawResult (busReturn 6 (regRawHi u.blk) { u with script := rest }).rdLog =
      some (BitVec.ofNat 64 (u.blk.acc.toNat / 2 ^ 32 * 2 ^ 32 + s.blk.acc.toNat % 2 ^ 32)) := by
    rw [busReturn_rdLog, hlog, busReturn_rdLog, getRawResult, rawFrameOf_registers]
  refine ⟨_, u, _, step_of_hostRd hs, hrun, step_of_hostRd hscript, rfl, rfl, rfl, hresult, fun hcase => ?_⟩
  have hacc : u.blk.acc = s.blk.acc := by
    rw [hblk, busReturn_blk]
    rcases hcase with hgap | ⟨hidle, hpend⟩
    · obtain rfl : levels = [] := List.eq_nil_of_length_eq_zero (hlen.trans hgap)
      rfl
    · obtain ⟨pre, us, ms, hrest⟩ := tickRun_rest Config.params levels hidle hpend
      rw [hrest]
  exact hresult.trans (by rw [hacc, Nat.div_add_mod'])

end Sys2Proof.Machine
end

section
/-! PROOF. The host's conversion to binary32 and its sentinels: the conversion is monotone, so every reading lies between
the bounds that R265 sets its sentinel outside of (spec/45_host_interface.md R259, R260, R263 to R265). -/
namespace Sys2Proof.Machine

/-! ## The quotient by ten -/

/-- `quot` is `n / 10` scaled by `2^27` and cut to its 24 highest bits, the `drop` bits below them dropped (R263). -/
structure TenthsCut (n drop quot : Nat) : Prop where
  quot_lo : 2 ^ 23 ≤ quot
  quot_hi : quot < 2 ^ 24
  below   : quot * (10 * 2 ^ drop) ≤ n * 2 ^ 27
  above   : n * 2 ^ 27 < (quot + 1) * (10 * 2 ^ drop)

/-- The cut that the conversion makes: the scaled quotient has at least 24 bits, so dropping all but 24 leaves 24. -/
theorem tenthsCut_log2 {n : Nat} (h : n ≠ 0) :
    TenthsCut n (Nat.log2 (n * 2 ^ 27 / 10) - 23) (n * 2 ^ 27 / (10 * 2 ^ (Nat.log2 (n * 2 ^ 27 / 10) - 23))) := by
  generalize hm : n * 2 ^ 27 = m
  have hbig : 2 ^ 23 ≤ m / 10 := by omega
  have hlog : 23 ≤ Nat.log2 (m / 10) := (Nat.le_log2 (by omega)).2 hbig
  obtain ⟨drop, hdrop⟩ := Nat.exists_eq_add_of_le hlog
  have hlo : 2 ^ (23 + drop) ≤ m / 10 := hdrop ▸ Nat.log2_self_le (by omega)
  have hhi : m / 10 < 2 ^ (24 + drop) := by
    have hlt := Nat.lt_log2_self (n := m / 10)
    rwa [hdrop, show 23 + drop + 1 = 24 + drop by omega] at hlt
  rw [hdrop, Nat.add_sub_cancel_left]
  rw [pow_add] at hlo hhi
  have hpos : 0 < 2 ^ drop := Nat.two_pow_pos drop
  have hden : 0 < 10 * 2 ^ drop := by omega
  constructor
  · rw [← Nat.div_div_eq_div_mul]
    exact (Nat.le_div_iff_mul_le hpos).2 hlo
  · rw [← Nat.div_div_eq_div_mul]
    exact (Nat.div_lt_iff_lt_mul hpos).2 hhi
  · rw [hm]
    exact Nat.div_mul_le_self m _
  · rw [hm, Nat.mul_comm]
    exact Nat.lt_mul_div_succ m hden

/-- A larger number has no smaller exponent. -/
theorem TenthsCut.drop_mono {m n d e q r : Nat} (h : TenthsCut m d q) (h' : TenthsCut n e r) (hmn : m ≤ n) : d ≤ e := by
  obtain ⟨hq, -, hbelow, -⟩ := h
  obtain ⟨-, hr, -, habove⟩ := h'
  by_contra hlt
  have hpow : 2 * 2 ^ e ≤ 2 ^ d := by
    rw [← pow_succ']
    exact Nat.pow_le_pow_right Nat.two_pos (by omega)
  have hlow : 2 ^ 23 * (10 * 2 ^ d) ≤ q * (10 * 2 ^ d) := Nat.mul_le_mul_right _ hq
  have hhigh : (r + 1) * (10 * 2 ^ e) ≤ 2 ^ 24 * (10 * 2 ^ e) := Nat.mul_le_mul_right _ hr
  omega

/-- At one exponent a larger number has a larger significand: one tenth is more than one unit of it. -/
theorem TenthsCut.quot_lt {m n d q r : Nat} (h : TenthsCut m d q) (h' : TenthsCut n d r) (hmn : m < n)
    (hd : d ≤ 16) : q < r := by
  have hpow : 2 ^ d ≤ 2 ^ 16 := Nat.pow_le_pow_right Nat.two_pos hd
  have hstep : (q + 1) * (10 * 2 ^ d) < (r + 1) * (10 * 2 ^ d) := by
    have hbelow := h.below
    have habove := h'.above
    rw [Nat.succ_mul]
    omega
  exact Nat.lt_of_succ_lt_succ (Nat.lt_of_mul_lt_mul_right hstep)

/-- A 16-bit number drops at most 16 bits. -/
theorem TenthsCut.drop_le {n d q : Nat} (h : TenthsCut n d q) (hn : n < 2 ^ 16) : d ≤ 16 := by
  obtain ⟨hq, -, hbelow, -⟩ := h
  by_contra hlt
  have hpow : 2 ^ 17 ≤ 2 ^ d := Nat.pow_le_pow_right Nat.two_pos (by omega)
  have hprod : 2 ^ 23 * (10 * 2 ^ 17) ≤ q * (10 * 2 ^ d) := Nat.mul_le_mul hq (by omega)
  omega

/-! ## The conversion -/

/-- The bits of a converted number: an exponent field, and a significand rounded up by one or not at all. -/
theorem f32OfTenths_toNat {n : Nat} (h : n ≠ 0) (hn : n < 2 ^ 16) : ∃ drop quot up, TenthsCut n drop quot ∧ up ≤ 1 ∧
    (f32OfTenths n).toNat = (drop + 123) * 2 ^ 23 + (quot + up - 2 ^ 23) := by
  have hcut := tenthsCut_log2 h
  have hdrop := hcut.drop_le hn
  have hquot := hcut.quot_hi
  rw [f32OfTenths, if_neg h]
  dsimp only
  rw [BitVec.toNat_ofNat]
  split_ifs
  · exact ⟨_, _, 1, hcut, le_rfl, Nat.mod_eq_of_lt (by omega)⟩
  · exact ⟨_, _, 0, hcut, Nat.zero_le 1, Nat.mod_eq_of_lt (by omega)⟩

/-- The conversion of 16-bit numbers is monotone, as bits and so as values. -/
theorem f32OfTenths_mono {m n : Nat} (hmn : m ≤ n) (hn : n < 2 ^ 16) : (f32OfTenths m).toNat ≤ (f32OfTenths n).toNat := by
  rcases Nat.eq_or_lt_of_le hmn with rfl | hlt
  · exact le_rfl
  by_cases h0 : m = 0
  · subst h0
    exact Nat.zero_le _
  obtain ⟨d, q, up, hcut, hup, hm⟩ := f32OfTenths_toNat h0 (by omega)
  obtain ⟨e, r, up', hcut', -, hn'⟩ := f32OfTenths_toNat (n := n) (by omega) hn
  have hq := hcut.quot_hi
  have hr := hcut'.quot_lo
  rw [hm, hn']
  rcases Nat.eq_or_lt_of_le (hcut.drop_mono hcut' hmn) with rfl | hde
  · have hqr := hcut.quot_lt hcut' hlt (hcut'.drop_le hn)
    omega
  · omega

/-! ## The readings -/

/-- The lowest temperature, `-3276.7`, as bits (R265). -/
theorem tempF32_lowest : tempF32 0x8001 = 0xC54CCB33 := by decide

/-- No converted number is above the highest humidity, `6553.5` (R265). -/
theorem f32OfTenths_le {n : Nat} (hn : n < 2 ^ 16) : (f32OfTenths n).toNat ≤ 0x45CCCC00 := by
  have hhighest : (f32OfTenths 65535).toNat = 0x45CCCC00 := by decide
  have hmono := f32OfTenths_mono (n := 65535) (Nat.le_of_lt_succ hn) (by decide)
  rwa [hhighest] at hmono

/-- The sign bit over a converted number. -/
theorem toNat_sign_or {x : BitVec 32} (h : x.toNat < 2 ^ 31) : (0x80000000 ||| x).toNat = 2 ^ 31 + x.toNat := by
  rw [BitVec.toNat_or]
  exact (Nat.two_pow_add_eq_or_of_lt h 1).symm

/-- No temperature but that of `0x8000`, which the block never delivers, is above the lowest one in its bits, in which a
negative value is the more the lower it is (R264). -/
theorem tempF32_le {t : BitVec 16} (h : t ≠ 0x8000) : (tempF32 t).toNat ≤ 0xC54CCB33 := by
  have hne : t.toNat ≠ 0x8000 := fun e => h (BitVec.eq_of_toNat_eq e)
  have ht := t.isLt
  rw [tempF32, getLsbD_sign]
  simp only [decide_eq_true_eq]
  split_ifs with hneg
  · have hmag : (-t).toNat ≤ 32767 := by
      rw [BitVec.toNat_neg]
      omega
    have hmono := f32OfTenths_mono hmag (by decide)
    have hlowest : (f32OfTenths 32767).toNat = 0x454CCB33 := by decide
    rw [hlowest] at hmono
    rw [toNat_sign_or (by omega)]
    omega
  · exact (f32OfTenths_le ht).trans (by decide)

/-- The block delivers no temperature `0x8000` (spec/43_decoder.md R189). -/
theorem tempTenths_ne_min (field : BitVec 16) : tempTenths field ≠ 0x8000 := by
  intro h
  have hint := temperatureConversion.1 field
  have hfield := field.isLt
  have hmin : (0x8000 : BitVec 16).toInt = -32768 := by decide
  rw [h, hmin] at hint
  split_ifs at hint
  omega

/-! ## The sentinels -/

/-- The legal values of SENTINEL_TEMP as an interval of bits: the bound from below has the sign bit already. -/
theorem sentinelTempLegal_iff (x : BitVec 32) :
    sentinelTempLegal x = true ↔ 0xC54CCB33 < x.toNat ∧ x.toNat ≤ 0xFF800000 := by
  have hsign : x.getLsbD 31 = decide (2 ^ 31 ≤ x.toNat) := by
    simpa [BitVec.msb, BitVec.getMsbD] using BitVec.msb_eq_decide x
  have hlowest : (tempF32 0x8001).toNat = 0xC54CCB33 := by rw [tempF32_lowest]; rfl
  rw [sentinelTempLegal, hsign, hlowest]
  simp only [Bool.and_eq_true, decide_eq_true_eq]
  omega

/-- The values of SENTINEL_TEMP, counted from just below the lowest temperature. -/
theorem sentinelTempAt_toNat (depth : Fin 976434381) : (sentinelTempAt depth).toNat = 0xC54CCB34 + depth.val := by
  have hdepth := depth.isLt
  rw [sentinelTempAt, tempF32_lowest, BitVec.toNat_add, BitVec.toNat_ofNat]
  have hbase : (0xC54CCB33 + 1 : BitVec 32).toNat = 0xC54CCB34 := rfl
  rw [hbase]
  omega

/-- The legal values are the values that the parameter may have (log 14). -/
theorem sentinelTempLegal_iff_exists (x : BitVec 32) :
    sentinelTempLegal x = true ↔ ∃ depth, sentinelTempAt depth = x := by
  rw [sentinelTempLegal_iff]
  constructor
  · rintro ⟨hlo, hhi⟩
    refine ⟨⟨x.toNat - 0xC54CCB34, by omega⟩, BitVec.eq_of_toNat_eq ?_⟩
    rw [sentinelTempAt_toNat]
    exact Nat.add_sub_of_le hlo
  · rintro ⟨depth, rfl⟩
    have hdepth := depth.isLt
    rw [sentinelTempAt_toNat]
    omega

/-- SENTINEL_TEMP is a legal value. -/
theorem sentinelTemp_legal : sentinelTempLegal sentinelTemp = true :=
  (sentinelTempLegal_iff_exists sentinelTemp).2 ⟨Config.sentinelTempDepth, rfl⟩

/-- No humidity is SENTINEL_HUM, which has the sign bit. -/
theorem humF32_ne_sentinel (n : BitVec 16) : humF32 n ≠ sentinelHum := by
  intro h
  have hle : (humF32 n).toNat ≤ 0x45CCCC00 := f32OfTenths_le n.isLt
  rw [h] at hle
  exact absurd hle (by decide)

/-- No temperature that the block delivers is SENTINEL_TEMP, which is below the lowest one. -/
theorem tempF32_ne_sentinel (field : BitVec 16) : tempF32 (tempTenths field) ≠ sentinelTemp := by
  intro h
  have hle := tempF32_le (tempTenths_ne_min field)
  obtain ⟨hlo, -⟩ := (sentinelTempLegal_iff sentinelTemp).1 sentinelTemp_legal
  rw [h] at hle
  omega

/-- Settles O58: the bounds above, and the two branches of the accessors. -/
theorem sentinelsAreNoReadings : Obligations.SentinelsAreNoReadings :=
  ⟨rfl, sentinelTempLegal_iff_exists, sentinelTemp_legal, humF32_ne_sentinel, tempF32_ne_sentinel, fun _ =>
    ⟨fun hok => ⟨if_pos hok, if_pos hok⟩, fun herr => ⟨if_neg herr, if_neg herr⟩⟩⟩

end Sys2Proof.Machine
end

section
/-! PROOF. The exceptions: what can change the host's two error flags, and that nothing stops the block
(spec/60_exceptions.md R270, R276). -/
namespace Sys2Proof.Machine

/-! ## The host's error flags -/

/-- A tick leaves both flags alone. -/
theorem tickBlock_flags (p : Params) (lvl : Bool) (b : Block) :
    (tickBlock p lvl b).ill = b.ill ∧ (tickBlock p lvl b).ovr = b.ovr := by
  obtain ⟨_, _, _, hill, hovr⟩ := seqStep_frame p lvl b
  exact ⟨(timeAdvance_ill b _).trans hill, (timeAdvance_ovr b _).trans hovr⟩

/-- A write to CMD clears neither flag: it marks one, or latches, or does nothing (spec/44_lifecycle.md R210). -/
theorem cmdWrite_keeps_flags (v : Word) (b : Block) :
    (b.ill = true → (cmdWrite v b).ill = true) ∧ (b.ovr = true → (cmdWrite v b).ovr = true) := by
  unfold cmdWrite
  split_ifs with hnop hillegal hbusy
  · exact ⟨id, id⟩
  · exact ⟨fun _ => markIllegal_ill b, id⟩
  · exact ⟨id, fun _ => markOverrun_ovr b⟩
  · exact ⟨id, id⟩

/-- A flag that a written 1 clears changes only when a 1 is written (spec/45_host_interface.md R255). -/
theorem written_of_flag_ne {flag w : Bool} (h : flag ≠ (flag && !w)) : w = true := by
  cases w with
  | true => rfl
  | false => exact absurd (Bool.and_true flag).symm h

/-- A write to STATUS sets neither flag, and clears each by its own bit. -/
theorem statusWrite_clears_flags (v : Word) (b : Block) :
    ((statusWrite v b).ill = true → b.ill = true) ∧ ((statusWrite v b).ovr = true → b.ovr = true) ∧
    (b.ill ≠ (statusWrite v b).ill → v.getLsbD 13 = true) ∧ (b.ovr ≠ (statusWrite v b).ovr → v.getLsbD 12 = true) :=
  ⟨Bool.and_elim_left, Bool.and_elim_left, written_of_flag_ne, written_of_flag_ne⟩

/-- A transaction writes CMD, writes STATUS, or leaves the block alone (spec/20_memory.md R87). -/
theorem accessBlock_cases (r : BusReq) (b : Block) :
    (r.we = true ∧ r.addr = 0 ∧ accessBlock r b = cmdWrite r.wdata b) ∨
    (r.we = true ∧ r.addr = 1 ∧ accessBlock r b = statusWrite r.wdata b) ∨
    accessBlock r b = b := by
  unfold accessBlock
  split_ifs with hcmd hstatus
  · exact .inl ⟨hcmd.1, hcmd.2, rfl⟩
  · exact .inr (.inl ⟨hstatus.1, hstatus.2, rfl⟩)
  · exact .inr (.inr rfl)

/-- Settles O42: of all that a step does, only the two writes change a flag, each in its own direction. -/
theorem hostErrorFlagsAreSticky : Obligations.HostErrorFlagsAreSticky := by
  intro s t h hr hne
  rcases step_next_cases h with ⟨r, rest, hs, hblk⟩ | ⟨_, _, _, hblk⟩ | ⟨_, hblk⟩ | ⟨hreset, _⟩
  · rcases accessBlock_cases r s.blk with ⟨hwe, ha, hacc⟩ | ⟨hwe, ha, hacc⟩ | hacc <;> rw [hacc] at hblk
    · refine ⟨r, rest, hs, hwe, .inl ⟨ha, ?_⟩⟩
      rw [hblk]
      exact cmdWrite_keeps_flags r.wdata s.blk
    · refine ⟨r, rest, hs, hwe, .inr ⟨ha, ?_⟩⟩
      rw [hblk]
      exact statusWrite_clears_flags r.wdata s.blk
    · simp [hblk] at hne
  · simp [hblk] at hne
  · simp [hblk, tickBlock_flags] at hne
  · simp [hreset] at hr

/-! ## Nothing stops the block -/

/-- Every arm of `exec` answers a next state: no instruction of the table is left without a meaning. -/
theorem exec_completes (i : Instr) (s : State) : ∃ t, exec i s = .next t := by
  cases i <;> exact ⟨_, rfl⟩

/-- Whatever comes next in the machine answers a next state: an access and a dispatch through `exec`, a tick and a reset by
themselves. -/
theorem step_completes (s : State) : ∃ t, step s = .next t := by
  unfold step
  cases nextTurn s with
  | access i u => exact exec_completes i u
  | dispatch i u =>
    obtain ⟨t, ht⟩ := exec_completes i u
    exact ⟨finishTick u t, congrArg (afterDispatch u) ht⟩
  | tick u => exact ⟨plainTick u, rfl⟩
  | reset u => exact ⟨resetBlock u, rfl⟩

/-- Settles O55: no step and no instruction faults or is refused. -/
theorem theBlockNeverStops : Obligations.TheBlockNeverStops :=
  ⟨step_completes, exec_completes⟩

end Sys2Proof.Machine
end

section
/-! PROOF. The step of a reset (spec/70_reset_and_hazards.md R300, R302). -/
namespace Sys2Proof.Machine

/-- With a reset next, the turn is the reset, whatever the block is doing. -/
theorem nextTurn_of_rst {s : State} {rest : List HostEvent} (h : s.script = .rst :: rest) :
    nextTurn s = .reset { s with script := rest } := by
  rw [nextTurn, h]

/-- With a reset next, the step is the reset of the block, and the reset is off the script. -/
theorem step_of_rst {s : State} {rest : List HostEvent} (h : s.script = .rst :: rest) :
    step s = .next (resetBlock { s with script := rest }) := by
  rw [step, nextTurn_of_rst h]

/-- With its output enable off the block drives nothing, whatever level is held (spec/10_state.md R51). -/
theorem lineDrive_of_released {b : Block} (h : b.lineOe = false) : lineDrive b = none := by
  simp [lineDrive, h]

/-- Settles O48: the reset needs nothing of the state it comes in (`step_of_rst`), and the reset block has no command in
its latch, is idle and has its output enable off. -/
theorem resetAbandonsEverything : Obligations.ResetAbandonsEverything := by
  intro s rest h
  have hstep : step s = .next { s with blk := State.reset.blk, script := rest } := step_of_rst h
  have hreleased : lineDrive State.reset.blk = none := lineDrive_of_released rfl
  exact ⟨hstep, rfl, rfl, hreleased⟩

end Sys2Proof.Machine
end
